-- ==== Sys2Proof/Word.lean ====
section
/-! DEFINITION. The word types of the block's host interface (00_scope.md R7, 20_memory.md R40 to R42) and the raw
lines of one word-indexed host transaction (30_encoding.md R61). -/

namespace Sys2Proof

/-- A 32-bit value: every register, every command word and every transfer (R7 `BUS_DATA_WIDTH`, R42). -/
abbrev Word := BitVec 32

/-- The symbol the block absorbs (R7 `SYMBOL_WIDTH`). -/
abbrev Byte := BitVec 8

/-- A word index of the host window, 0 to 15 (R7 `WORD_INDEX_WIDTH`, R40). -/
abbrev WordIndex := BitVec 4

/-- The transaction key `K = {WE, IDX[3:0]}` (R61). -/
abbrev BusKey := BitVec 5

/-- The lines of one host transaction (R61): its key, and the data lines.
The block uses `wdata` only when WE = 1; on a read the lines carry nothing it looks at (DESIGN CHOICE, log entry 6). -/
structure Transaction where
  key   : BusKey
  wdata : Word
  deriving DecidableEq, Repr

end Sys2Proof
end

