-- ==== Sys2Proof/Syntax.lean ====
section
/-! DEFINITION. The instructions of the block: one constructor per row of spec/opcode_table.json.
Five rows are command words, performed by a host write to CMD (30_encoding.md R62, R63); sixteen are host transactions, a
read or a write of a word index of the window (30_encoding.md R61, 20_memory.md R51). -/

namespace Sys2Proof

inductive Instr where
  /-- `crc.nop` (41_commands.md R101). -/
  | nop
  /-- `crc.init` (R102). -/
  | init
  /-- `crc.absorb8 IMM8` (R103): `IMM8 = w[7:0]`. -/
  | absorb8 (imm8 : Byte)
  /-- `crc.absorbd N` (R104): the field `N1 = w[1:0]`; the number of bytes is `n = N1 + 1`, so `N` is 1 to 4 (30_encoding.md R66). -/
  | absorbd (n1 : BitVec 2)
  /-- `crc.check` (R105). -/
  | check
  /-- `wr CMD, v` (42_register_access.md R120): `v` is any 32-bit word, legal command or not. -/
  | wrCmd (v : Word)
  /-- `rd CMD` (R121). -/
  | rdCmd
  /-- `wr DATA, v` (R122). -/
  | wrData (v : Word)
  /-- `rd DATA` (R123). -/
  | rdData
  /-- `wr EXPECT, v` (R124). -/
  | wrExpect (v : Word)
  /-- `rd EXPECT` (R125). -/
  | rdExpect
  /-- `wr RESULT, v` (R127). -/
  | wrResult (v : Word)
  /-- `rd RESULT` (R126). -/
  | rdResult
  /-- `wr COUNT, v` (R129). -/
  | wrCount (v : Word)
  /-- `rd COUNT` (R128). -/
  | rdCount
  /-- `wr STATUS, v` (R131). -/
  | wrStatus (v : Word)
  /-- `rd STATUS` (R130). -/
  | rdStatus
  /-- `wr R6, v` or `wr R7, v` (R133): `idx` is the reserved index itself, 6 or 7 (WellFormed.lean checks it). -/
  | wrR6R7 (idx : WordIndex) (v : Word)
  /-- `rd R6` or `rd R7` (R132). -/
  | rdR6R7 (idx : WordIndex)
  /-- `wr R8, v` to `wr R15, v` (R133): `idx` is the reserved index itself, 8 to 15. -/
  | wrR8R15 (idx : WordIndex) (v : Word)
  /-- `rd R8` to `rd R15` (R132). -/
  | rdR8R15 (idx : WordIndex)
  deriving DecidableEq, Repr

end Sys2Proof
end

