-- ==== Sys2Proof/WellFormed.lean ====
section
/-! DEFINITION. Which terms of `Instr` are instructions. The widths of the operands already say everything but one
thing: the index of a reserved-location transaction lies in its row's range (20_memory.md R51, 42_register_access.md R132, R133). -/

namespace Sys2Proof

/-- The index of the row `R6-R7`: 6 or 7. -/
def isR6R7 (idx : WordIndex) : Bool := idx == 6#4 || idx == 7#4

/-- The index of the row `R8-R15`: 8 to 15. -/
def isR8R15 (idx : WordIndex) : Bool := decide (8 ≤ idx.toNat)

/-- The instruction's operands are ones its encoding admits. -/
def Instr.wf : Instr → Bool
  | .nop => true
  | .init => true
  | .absorb8 _ => true
  | .absorbd _ => true
  | .check => true
  | .wrCmd _ => true
  | .rdCmd => true
  | .wrData _ => true
  | .rdData => true
  | .wrExpect _ => true
  | .rdExpect => true
  | .wrResult _ => true
  | .rdResult => true
  | .wrCount _ => true
  | .rdCount => true
  | .wrStatus _ => true
  | .rdStatus => true
  | .wrR6R7 idx _ => isR6R7 idx
  | .rdR6R7 idx => isR6R7 idx
  | .wrR8R15 idx _ => isR8R15 idx
  | .rdR8R15 idx => isR8R15 idx

end Sys2Proof
end

