-- ==== Sys2Proof/Decode.lean ====
section
/-! DEFINITION. The two decoding layers of the block (30_encoding.md R60): the 5-bit transaction key (R61) and the 32-bit
command word (R62, R67). Then the encoder, the opcode table as data, and the host's two views of a table word. -/

namespace Sys2Proof

/-! ### The command word (R62 to R68) -/

/-- What a command word decodes to (R67): one of the five commands, or Illegal. Every 32-bit word yields exactly one. -/
inductive Command where
  | nop
  | init
  | absorb8 (imm8 : Byte)
  | absorbd (n1 : BitVec 2)
  | check
  /-- Any word outside the rows of R63 (R68). -/
  | illegal
  deriving DecidableEq, Repr

/-- `OP = w[31:24]` (R62). -/
def opOf (w : Word) : BitVec 8 := w.extractLsb' 24 8

/-- `IMM8 = w[7:0]` (R65). -/
def imm8Of (w : Word) : Byte := w.extractLsb' 0 8

/-- `N1 = w[1:0]` (R66). -/
def n1Of (w : Word) : BitVec 2 := w.extractLsb' 0 2

/-- `decode` of R67, test by test in its order. -/
def decodeCommand (w : Word) : Command :=
  if w = 0x00000000#32 then .nop
  else if w = 0x01000000#32 then .init
  else if w &&& 0xFFFFFF00#32 = 0x02000000#32 then .absorb8 (imm8Of w)
  else if w &&& 0xFFFFFFFC#32 = 0x03000000#32 then .absorbd (n1Of w)
  else if w = 0x04000000#32 then .check
  else .illegal

/-- The instruction a legal command is; Illegal is none (R63, R68). -/
def Command.instr? : Command → Option Instr
  | .nop => some .nop
  | .init => some .init
  | .absorb8 imm8 => some (.absorb8 imm8)
  | .absorbd n1 => some (.absorbd n1)
  | .check => some .check
  | .illegal => none

/-- The command an instruction performs, if it performs one: its own, or the one a CMD write carries (R120). -/
def Instr.command? : Instr → Option Command
  | .nop => some .nop
  | .init => some .init
  | .absorb8 imm8 => some (.absorb8 imm8)
  | .absorbd n1 => some (.absorbd n1)
  | .check => some .check
  | .wrCmd v => some (decodeCommand v)
  | .rdCmd => none
  | .wrData _ => none
  | .rdData => none
  | .wrExpect _ => none
  | .rdExpect => none
  | .wrResult _ => none
  | .rdResult => none
  | .wrCount _ => none
  | .rdCount => none
  | .wrStatus _ => none
  | .rdStatus => none
  | .wrR6R7 _ _ => none
  | .rdR6R7 _ => none
  | .wrR8R15 _ _ => none
  | .rdR8R15 _ => none

/-! ### The transaction (R61) -/

/-- WE = K[4]: 1 is a write, 0 a read (R61). -/
def Transaction.we (t : Transaction) : Bool := t.key.getLsbD 4

/-- IDX = K[3:0] (R61). -/
def Transaction.idx (t : Transaction) : WordIndex := t.key.extractLsb' 0 4

/-- `K = {WE, IDX}` (R61). -/
def keyOf (we : Bool) (idx : WordIndex) : BusKey := BitVec.ofBool we ++ idx

/-- `BusWrite(idx, v)` as lines (R41, R61). -/
def busWrite (idx : WordIndex) (v : Word) : Transaction := ⟨keyOf true idx, v⟩

/-- `BusRead(idx)` as lines (R41, R61); a read carries no data (DESIGN CHOICE, log entry 6). -/
def busRead (idx : WordIndex) : Transaction := ⟨keyOf false idx, 0#32⟩

/-- The write row of an index (R33, R51, R61). -/
def writeRow (idx : WordIndex) (v : Word) : Instr :=
  if idx = 0#4 then .wrCmd v
  else if idx = 1#4 then .wrData v
  else if idx = 2#4 then .wrExpect v
  else if idx = 3#4 then .wrResult v
  else if idx = 4#4 then .wrCount v
  else if idx = 5#4 then .wrStatus v
  else if isR6R7 idx then .wrR6R7 idx v
  else .wrR8R15 idx v

/-- The read row of an index (R33, R51, R61). -/
def readRow (idx : WordIndex) : Instr :=
  if idx = 0#4 then .rdCmd
  else if idx = 1#4 then .rdData
  else if idx = 2#4 then .rdExpect
  else if idx = 3#4 then .rdResult
  else if idx = 4#4 then .rdCount
  else if idx = 5#4 then .rdStatus
  else if isR6R7 idx then .rdR6R7 idx
  else .rdR8R15 idx

/-- The first layer (R60, R61): every key is some row, so nothing is refused here. -/
def decodeTransaction (t : Transaction) : Instr :=
  if t.we then writeRow t.idx t.wdata else readRow t.idx

/-! ### Both layers as one decoder and one encoder -/

/-- The bits of an instruction, at the layer its opcode-table row stands on (R60). -/
inductive Code where
  | command (w : Word)
  | transaction (t : Transaction)
  deriving DecidableEq, Repr

/-- Why a code is no row of the opcode table. -/
inductive DecodeError where
  /-- The command word is Illegal (R68). As a transaction it is still `wr CMD` of that word, which sets ILLEGAL (R161). -/
  | illegalCommandWord (w : Word)
  deriving DecidableEq, Repr

/-- The decoder, total on both layers. -/
def decode : Code → Except DecodeError Instr
  | .command w =>
    match (decodeCommand w).instr? with
    | some i => .ok i
    | none => .error (.illegalCommandWord w)
  | .transaction t => .ok (decodeTransaction t)

/-- The encoder: the word of a command (R63, R71), the key and data of a transaction (R61, R72). -/
def encode : Instr → Code
  | .nop => .command 0x00000000#32
  | .init => .command 0x01000000#32
  | .absorb8 imm8 => .command (0x02000000#32 ||| imm8.setWidth 32)
  | .absorbd n1 => .command (0x03000000#32 ||| n1.setWidth 32)
  | .check => .command 0x04000000#32
  | .wrCmd v => .transaction (busWrite 0#4 v)
  | .rdCmd => .transaction (busRead 0#4)
  | .wrData v => .transaction (busWrite 1#4 v)
  | .rdData => .transaction (busRead 1#4)
  | .wrExpect v => .transaction (busWrite 2#4 v)
  | .rdExpect => .transaction (busRead 2#4)
  | .wrResult v => .transaction (busWrite 3#4 v)
  | .rdResult => .transaction (busRead 3#4)
  | .wrCount v => .transaction (busWrite 4#4 v)
  | .rdCount => .transaction (busRead 4#4)
  | .wrStatus v => .transaction (busWrite 5#4 v)
  | .rdStatus => .transaction (busRead 5#4)
  | .wrR6R7 idx v => .transaction (busWrite idx v)
  | .rdR6R7 idx => .transaction (busRead idx)
  | .wrR8R15 idx v => .transaction (busWrite idx v)
  | .rdR8R15 idx => .transaction (busRead idx)

/-- The transaction that carries a code to the block: a command word is written to CMD (R60, R120). -/
def Code.transactionOf : Code → Transaction
  | .command w => busWrite 0#4 w
  | .transaction t => t

/-- The code with the lines a read does not use set to 0: the one spelling the encoder gives. -/
def Code.normal : Code → Code
  | .command w => .command w
  | .transaction t => .transaction (if t.we then t else ⟨t.key, 0#32⟩)

/-- A command that absorbs at least one byte (R100). -/
def Command.absorbs : Command → Bool
  | .absorb8 _ => true
  | .absorbd _ => true
  | .nop => false
  | .init => false
  | .check => false
  | .illegal => false

/-- A read transaction: a word is returned to the host (R41). -/
def Instr.isRead (i : Instr) : Bool :=
  match encode i with
  | .transaction t => !t.we
  | .command _ => false

/-! ### The opcode table as data (R61, R63; spec/opcode_table.json) -/

/-- One row: its layer, and its match and mask over the layer's bits. -/
inductive Row where
  | command (pattern mask : Word)
  | transaction (pattern mask : BusKey)
  deriving DecidableEq, Repr

/-- `(bits AND mask) == match`, on the row's own layer. -/
def Row.accepts : Row → Code → Bool
  | .command pattern mask, .command w => w &&& mask == pattern
  | .transaction pattern mask, .transaction t => t.key &&& mask == pattern
  | .command _ _, .transaction _ => false
  | .transaction _ _, .command _ => false

/-- The row an instruction stands for. -/
def Instr.row : Instr → Row
  | .nop => .command 0x00000000#32 0xFFFFFFFF#32
  | .init => .command 0x01000000#32 0xFFFFFFFF#32
  | .absorb8 _ => .command 0x02000000#32 0xFFFFFF00#32
  | .absorbd _ => .command 0x03000000#32 0xFFFFFFFC#32
  | .check => .command 0x04000000#32 0xFFFFFFFF#32
  | .wrCmd _ => .transaction 0x10#5 0x1F#5
  | .rdCmd => .transaction 0x00#5 0x1F#5
  | .wrData _ => .transaction 0x11#5 0x1F#5
  | .rdData => .transaction 0x01#5 0x1F#5
  | .wrExpect _ => .transaction 0x12#5 0x1F#5
  | .rdExpect => .transaction 0x02#5 0x1F#5
  | .wrResult _ => .transaction 0x13#5 0x1F#5
  | .rdResult => .transaction 0x03#5 0x1F#5
  | .wrCount _ => .transaction 0x14#5 0x1F#5
  | .rdCount => .transaction 0x04#5 0x1F#5
  | .wrStatus _ => .transaction 0x15#5 0x1F#5
  | .rdStatus => .transaction 0x05#5 0x1F#5
  | .wrR6R7 _ _ => .transaction 0x16#5 0x1E#5
  | .rdR6R7 _ => .transaction 0x06#5 0x1E#5
  | .wrR8R15 _ _ => .transaction 0x18#5 0x18#5
  | .rdR8R15 _ => .transaction 0x08#5 0x18#5

/-- The five command rows (R63). -/
def commandRows : List Row :=
  [.command 0x00000000#32 0xFFFFFFFF#32, .command 0x01000000#32 0xFFFFFFFF#32,
   .command 0x02000000#32 0xFFFFFF00#32, .command 0x03000000#32 0xFFFFFFFC#32,
   .command 0x04000000#32 0xFFFFFFFF#32]

/-- The sixteen transaction rows (R61). -/
def transactionRows : List Row :=
  [.transaction 0x10#5 0x1F#5, .transaction 0x00#5 0x1F#5, .transaction 0x11#5 0x1F#5, .transaction 0x01#5 0x1F#5,
   .transaction 0x12#5 0x1F#5, .transaction 0x02#5 0x1F#5, .transaction 0x13#5 0x1F#5, .transaction 0x03#5 0x1F#5] ++
  [.transaction 0x14#5 0x1F#5, .transaction 0x04#5 0x1F#5, .transaction 0x15#5 0x1F#5, .transaction 0x05#5 0x1F#5,
   .transaction 0x16#5 0x1E#5, .transaction 0x06#5 0x1E#5, .transaction 0x18#5 0x18#5, .transaction 0x08#5 0x18#5]

/-- The whole table. -/
def opcodeTable : List Row := commandRows ++ transactionRows

/-! ### A table word -/

/-- The code of a table row's bits: a row of 32 bits is a command word, a row of at most 8 bits is a transaction key
(5 bits, in one byte) whose data lines are 0 (DESIGN CHOICE, log entry 2). -/
def tableCode (nbits w : Nat) : Option Code :=
  if nbits = 32 then
    if w < 2 ^ 32 then some (.command (BitVec.ofNat 32 w)) else none
  else if nbits ≤ 8 then
    if w < 2 ^ 5 then some (.transaction ⟨BitVec.ofNat 5 w, 0#32⟩) else none
  else none

/-- The instruction the decoder reads from a table row's bits; none where it refuses. -/
def decodeTableWord (nbits w : Nat) : Option Instr :=
  match tableCode nbits w with
  | some c =>
    match decode c with
    | .ok i => some i
    | .error _ => none
  | none => none

end Sys2Proof
end

