-- ==== Sys2Proof/Machine/Crc.lean ====
section
/-! DEFINITION. The CRC-32/ISO-HDLC function (40_crc_function.md): the parameters (R80), the one-byte update the block
performs (R82), and the checksum of a byte sequence (R85). The block uses R82 only; R83 and R84 are the other two forms
the spec gives, kept beside it so that claims can say they agree. -/

namespace Sys2Proof.Machine

/-- R80: the generator polynomial, normal form, x^32 implicit. -/
def crcPoly : Word := 0x04C11DB7#32

/-- R80, R81: the same polynomial bit-reversed. -/
def crcPolyReflected : Word := 0xEDB88320#32

/-- R80: S before the first byte. -/
def crcInit : Word := 0xFFFFFFFF#32

/-- R80: RESULT = S XOR this. -/
def crcXorOut : Word := 0xFFFFFFFF#32

/-- One of R82's eight rounds. -/
def bitStep (t : Word) : Word :=
  if t.getLsbD 0 then (t >>> 1) ^^^ crcPolyReflected else t >>> 1

/-- `repeat n times` of R82. -/
def bitSteps : Nat → Word → Word
  | 0, t => t
  | n + 1, t => bitSteps n (bitStep t)

/-- R82: `ByteStep(s, b)`. The byte enters zero-extended (30_encoding.md R65), least significant bit first. -/
def byteStep (s : Word) (b : Byte) : Word := bitSteps 8 (s ^^^ b.setWidth 32)

/-- R85: `Raw(s0, m)`. -/
def crcRaw (s0 : Word) (m : List Byte) : Word := m.foldl byteStep s0

/-- R85: `Crc32(m)`. -/
def crc32 (m : List Byte) : Word := crcRaw crcInit m ^^^ crcXorOut

/-- R83: the table entry `T[i] = ByteStep(0, i)`. -/
def crcTable (i : Byte) : Word := byteStep 0#32 i

/-- R83: ByteStep through the table. -/
def tableStep (s : Word) (b : Byte) : Word :=
  (s >>> 8) ^^^ crcTable ((s ^^^ b.setWidth 32).extractLsb' 0 8)

/-- One of R84's eight rounds, on a register held most significant bit first. -/
def msbBitStep (u : Word) : Word :=
  (u <<< 1) ^^^ (if u.getLsbD 31 then crcPoly else 0#32)

/-- `repeat n times` of R84. -/
def msbBitSteps : Nat → Word → Word
  | 0, u => u
  | n + 1, u => msbBitSteps n (msbBitStep u)

/-- R84: the update on `U = rev32(S)`. -/
def msbByteStep (u : Word) (b : Byte) : Word :=
  msbBitSteps 8 (u ^^^ (b.reverse.setWidth 32 <<< 24))

end Sys2Proof.Machine
end

