-- ==== Sys2Proof/Config.lean ====
section
/-! DEFINITION. The two parameters the spec leaves OPEN (00_scope.md R7). Each is a constant with no body: nothing in
Lean can evaluate it, so a claim about it holds for every value the platform may choose (DESIGN CHOICE, log entry 9). -/

namespace Sys2Proof

/-- `CRC_BASE` (R7, R41; 92_eei_decisions.md D19, OPEN): the byte address at which the host maps the window. -/
opaque Config.crcBase : Nat

/-- `HOST_VERIFY_ON_PARSE` (R7, R148; 92_eei_decisions.md D18, OPEN): whether the host rejects a parsed chunk whose CHECK
gives MATCH = 0. The block never reads it. -/
opaque Config.hostVerifyOnParse : Bool

end Sys2Proof
end

