-- ==== Sys2Proof/Machine/State.lean ====
section
/-! DEFINITION. The state of the machine (10_state.md R20 to R37), what the host can do to it, and the reasons a step
can stop. The block's own state is `Block`, element for element R20's tuple; the rest of `State` is the host's side of the
interface, kept so that one deterministic step can run a host's list of transactions (R34, R53, R189;
DESIGN CHOICE, log entry 1). -/

namespace Sys2Proof.Machine

/-- R20: the block's state is this tuple, and nothing else. -/
structure Block where
  /-- R21: the running CRC remainder, reflected, before the final XOR. -/
  S       : Word
  /-- R23: bytes absorbed since the last INIT or reset, modulo 2^32. -/
  COUNT   : Word
  /-- R24: staging register of ABSORBD. -/
  DATA    : Word
  /-- R25: the checksum CHECK compares against. -/
  EXPECT  : Word
  /-- R27: the last CHECK found RESULT == EXPECT. -/
  MATCH   : Bool
  /-- R28: a CHECK has run and nothing has made it stale. -/
  CHECKED : Bool
  /-- R29, sticky: an illegal command word was written to CMD. -/
  ILLEGAL : Bool
  /-- R30, sticky: COUNT has wrapped. -/
  WRAP    : Bool
  deriving DecidableEq, Repr

/-- R37: the reset value of every element; none is unspecified. -/
def Block.reset : Block :=
  { S := 0xFFFFFFFF#32, COUNT := 0#32, DATA := 0#32, EXPECT := 0#32,
    MATCH := false, CHECKED := false, ILLEGAL := false, WRAP := false }

/-- What the outside world can do to the block, one thing at a time. -/
inductive HostEvent where
  /-- A word-indexed transaction (20_memory.md R41). -/
  | transaction (t : Transaction)
  /-- An access of `width` bytes at a byte address of the host's space, where the host has mapped the window (R41, R43). -/
  | byteAccess (write : Bool) (addr width : Nat) (wdata : Word)
  /-- The reset input is driven to this level, between two transactions (70_reset_and_hazards.md R180, R182). -/
  | resetLine (asserted : Bool)
  deriving DecidableEq, Repr

/-- The machine: the block, and the host's side of its interface. -/
structure State where
  /-- R20: the block. -/
  block         : Block
  /-- R182: the level of the reset input; while it is asserted the block accepts no transaction. -/
  resetAsserted : Bool
  /-- R34, R53, R189: what the host still issues, in issue order. -/
  pending       : List HostEvent
  /-- R189: the values returned by the reads so far, in order. -/
  returned      : List Word
  deriving DecidableEq, Repr

/-- R37, R180: the machine right after reset, with nothing issued yet. -/
def State.reset : State :=
  { block := Block.reset, resetAsserted := false, pending := [], returned := [] }

/-- A step can end in no fault: the block raises none (60_exceptions.md R160), so this type has no member. -/
inductive Fault
  deriving DecidableEq, Repr

/-- The reasons a step is not defined. All are safe: the model stops where the spec says the interface gives no behaviour. -/
inductive Refusal where
  /-- Raised by exec for an instruction with no meaning yet; safe. No arm of exec raises it. -/
  | notModelled (mnemonic : String)
  /-- Raised by step: a byte access whose offset from CRC_BASE is not a multiple of 4 (R43); safe. -/
  | misalignedAccess
  /-- Raised by step: a byte access that is not exactly 32 bits wide (R42, R43; 93_implementation_defined.md U9); safe. -/
  | accessNot32Bits
  /-- Raised by step: a byte access outside the window, which does not reach the block (R40, R51; DESIGN CHOICE, log entry 5); safe. -/
  | outsideWindow
  /-- Raised by step: a transaction while reset is asserted (R182; 93_implementation_defined.md U10); safe. -/
  | transactionDuringReset
  deriving DecidableEq, Repr

end Sys2Proof.Machine
end

