-- ==== Sys2Proof/Machine/Flags.lean ====
section
/-! DEFINITION. The four flags and every way they change (10_state.md R26 to R31). -/

namespace Sys2Proof.Machine

/-- R22: RESULT is a view of S, not stored state. -/
def Block.result (b : Block) : Word := b.S ^^^ crcXorOut

/-- R26: `STATUS = {28'b0, WRAP, ILLEGAL, CHECKED, MATCH}`; R31: bits 31:4 are hardwired to 0. -/
def Block.status (b : Block) : Word :=
  0#28 ++ BitVec.ofBool b.WRAP ++ BitVec.ofBool b.ILLEGAL ++ BitVec.ofBool b.CHECKED ++ BitVec.ofBool b.MATCH

/-- R27, R28: a comparison made before is no longer current. -/
def Block.clearCheck (b : Block) : Block := { b with MATCH := false, CHECKED := false }

/-- R27, R28, R105: the comparison of all 32 bits of RESULT with EXPECT, and that it has run. -/
def Block.recordCheck (b : Block) : Block := { b with MATCH := b.result == b.EXPECT, CHECKED := true }

/-- R29, R161: sticky. -/
def Block.setIllegal (b : Block) : Block := { b with ILLEGAL := true }

/-- R30, R100: sticky; set by an Absorb that finds COUNT at its largest value, before the increment. -/
def Block.noteWrap (b : Block) : Block := { b with WRAP := b.WRAP || b.COUNT == 0xFFFFFFFF#32 }

/-- R102: INIT clears all four flags. -/
def Block.clearFlags (b : Block) : Block :=
  { b with MATCH := false, CHECKED := false, ILLEGAL := false, WRAP := false }

end Sys2Proof.Machine
end

