-- ==== Sys2Proof/Machine/Operands.lean ====
section
/-! DEFINITION. The operand forms: the bytes ABSORBD takes from DATA (20_memory.md R44, R49), the value a word index of
the window reads as (R51), and the index a byte address selects (R41, R43). -/

namespace Sys2Proof.Machine

/-- R44: the four bytes of a word, most significant first. The same order serialises a checksum (R45). -/
def wordBytes (w : Word) : List Byte :=
  [w.extractLsb' 24 8, w.extractLsb' 16 8, w.extractLsb' 8 8, w.extractLsb' 0 8]

/-- R44, R46: the word whose bytes, most significant first, are these four: `{c0, c1, c2, c3}`. -/
def wordOfBytes (c0 c1 c2 c3 : Byte) : Word := c0 ++ c1 ++ c2 ++ c3

/-- R66: the number of bytes ABSORBD absorbs, `n = N1 + 1`. -/
def byteCount (n1 : BitVec 2) : Nat := n1.toNat + 1

/-- R104: `d[31:24]` first, n bytes; with n < 4 the rest of DATA is ignored. -/
def absorbdBytes (d : Word) (n1 : BitVec 2) : List Byte := (wordBytes d).take (byteCount n1)

/-- R51, R33: what a read of a word index returns. CMD and the reserved indices 6 to 15 read 0 (R121, R132). -/
def Block.readIndex (b : Block) (idx : WordIndex) : Word :=
  if idx = 1#4 then b.DATA
  else if idx = 2#4 then b.EXPECT
  else if idx = 3#4 then b.result
  else if idx = 4#4 then b.COUNT
  else if idx = 5#4 then b.status
  else 0#32

/-- R41, R42, R43: the word index that an access of `width` bytes at `addr` selects in a window mapped at `base`.
Which refusal is named first is the model's choice (DESIGN CHOICE, log entry 5). -/
def locate (base addr width : Nat) : Except Refusal WordIndex :=
  if width ≠ 4 then .error .accessNot32Bits
  else if addr < base ∨ base + 64 ≤ addr then .error .outsideWindow
  else if (addr - base) % 4 ≠ 0 then .error .misalignedAccess
  else .ok (BitVec.ofNat 4 ((addr - base) / 4))

end Sys2Proof.Machine
end

