-- ==== Sys2Proof/Machine/Ops.lean ====
section
/-! DEFINITION. The named operations the meanings share: Absorb (41_commands.md R100), the five commands and the effect of
an illegal word, the write of a word index, and the two bus transactions as state changes (20_memory.md R41).
The block takes no exception (60_exceptions.md R160): the one condition it detects and reports is an illegal command word,
and `Block.flagIllegal` is the one operation that does so. -/

namespace Sys2Proof.Machine

/-- R100: `Absorb(b)`, line by line. -/
def Block.absorb (b : Block) (x : Byte) : Block :=
  let afterS := { b with S := byteStep b.S x }
  let afterWrap := afterS.noteWrap
  let afterCount := { afterWrap with COUNT := afterWrap.COUNT + 1#32 }
  afterCount.clearCheck

/-- R103, R104: bytes absorbed one after another. -/
def Block.absorbAll (b : Block) (m : List Byte) : Block := m.foldl Block.absorb b

/-- R104: DATA is sampled once, before any byte, and is not changed. -/
def Block.absorbData (b : Block) (n1 : BitVec 2) : Block := b.absorbAll (absorbdBytes b.DATA n1)

/-- R102: a new checksum; DATA and EXPECT are kept. -/
def Block.startChecksum (b : Block) : Block := { b with S := crcInit, COUNT := 0#32 }.clearFlags

/-- R105: compare the checksum so far with EXPECT. -/
def Block.compare (b : Block) : Block := b.recordCheck

/-- R161: the exactly one effect of an illegal command word. -/
def Block.flagIllegal (b : Block) : Block := b.setIllegal

/-- R120: perform what a command word decodes to. -/
def Block.perform (b : Block) : Command → Block
  | .nop => b
  | .init => b.startChecksum
  | .absorb8 imm8 => b.absorb imm8
  | .absorbd n1 => b.absorbData n1
  | .check => b.compare
  | .illegal => b.flagIllegal

/-- R122. -/
def Block.setData (b : Block) (v : Word) : Block := { b with DATA := v }

/-- R124: writing the value EXPECT already holds still clears both flags. -/
def Block.setExpect (b : Block) (v : Word) : Block := { b with EXPECT := v }.clearCheck

/-- R51, R33: what a write to a word index does. Writes to RESULT, COUNT, STATUS and the reserved indices are ignored. -/
def Block.writeIndex (b : Block) (idx : WordIndex) (v : Word) : Block :=
  if idx = 0#4 then b.perform (decodeCommand v)
  else if idx = 1#4 then b.setData v
  else if idx = 2#4 then b.setExpect v
  else b

/-- A change of the block alone. -/
def State.onBlock (s : State) (f : Block → Block) : State := { s with block := f s.block }

/-- R11, R41: a read hands a word to the host and changes nothing of the block (R50). -/
def State.returnWord (s : State) (v : Word) : State := { s with returned := s.returned ++ [v] }

/-- R41: `BusRead(idx)`. -/
def State.busRead (s : State) (idx : WordIndex) : State := s.returnWord (s.block.readIndex idx)

/-- R41: `BusWrite(idx, v)`. -/
def State.busWrite (s : State) (idx : WordIndex) (v : Word) : State := s.onBlock (Block.writeIndex · idx v)

/-- The host's next event is taken off its list. -/
def State.popEvent (s : State) : State := { s with pending := s.pending.tail }

/-- R180, R182: the reset input is driven. Asserting it sets every element of the block to its reset value; releasing it
leaves the block in that state. Driving it low when it is low is no event (DESIGN CHOICE, log entry 4). -/
def State.driveReset (s : State) (asserted : Bool) : State :=
  if asserted then { s with block := Block.reset, resetAsserted := true }
  else if s.resetAsserted then { s with block := Block.reset, resetAsserted := false }
  else s

end Sys2Proof.Machine
end

