-- ==== Sys2Proof/Machine/Commands.lean ====
section
/-! DEFINITION. The meanings of the five commands (41_commands.md R101 to R105). -/

namespace Sys2Proof.Machine

/-- R101: no state element changes. -/
def execNop (s : State) : Host.Outcome State Fault Refusal := .next s

/-- R102. -/
def execInit (s : State) : Host.Outcome State Fault Refusal := .next (s.onBlock Block.startChecksum)

/-- R103: one Absorb of IMM8. -/
def execAbsorb8 (imm8 : Byte) (s : State) : Host.Outcome State Fault Refusal :=
  .next (s.onBlock (Block.absorb · imm8))

/-- R104: n = N1 + 1 Absorbs of the top bytes of DATA. -/
def execAbsorbd (n1 : BitVec 2) (s : State) : Host.Outcome State Fault Refusal :=
  .next (s.onBlock (Block.absorbData · n1))

/-- R105. -/
def execCheck (s : State) : Host.Outcome State Fault Refusal := .next (s.onBlock Block.compare)

end Sys2Proof.Machine
end

