-- ==== Sys2Proof/Machine/Registers.lean ====
section
/-! DEFINITION. The meanings of the sixteen register access transactions (42_register_access.md R120 to R133). -/

namespace Sys2Proof.Machine

/-- R120: the command the word decodes to is performed in this transaction; an illegal word sets ILLEGAL only (R161). -/
def execWrCmd (v : Word) (s : State) : Host.Outcome State Fault Refusal := .next (s.busWrite 0#4 v)

/-- R121: returns 0; CMD holds no state. -/
def execRdCmd (s : State) : Host.Outcome State Fault Refusal := .next (s.busRead 0#4)

/-- R122. -/
def execWrData (v : Word) (s : State) : Host.Outcome State Fault Refusal := .next (s.busWrite 1#4 v)

/-- R123. -/
def execRdData (s : State) : Host.Outcome State Fault Refusal := .next (s.busRead 1#4)

/-- R124. -/
def execWrExpect (v : Word) (s : State) : Host.Outcome State Fault Refusal := .next (s.busWrite 2#4 v)

/-- R125. -/
def execRdExpect (s : State) : Host.Outcome State Fault Refusal := .next (s.busRead 2#4)

/-- R127: the value is ignored, and ILLEGAL is not set. -/
def execWrResult (v : Word) (s : State) : Host.Outcome State Fault Refusal := .next (s.busWrite 3#4 v)

/-- R126. -/
def execRdResult (s : State) : Host.Outcome State Fault Refusal := .next (s.busRead 3#4)

/-- R129: the value is ignored. -/
def execWrCount (v : Word) (s : State) : Host.Outcome State Fault Refusal := .next (s.busWrite 4#4 v)

/-- R128. -/
def execRdCount (s : State) : Host.Outcome State Fault Refusal := .next (s.busRead 4#4)

/-- R131: the value is ignored; writing 1s clears no sticky flag. -/
def execWrStatus (v : Word) (s : State) : Host.Outcome State Fault Refusal := .next (s.busWrite 5#4 v)

/-- R130: the read clears nothing. -/
def execRdStatus (s : State) : Host.Outcome State Fault Refusal := .next (s.busRead 5#4)

/-- R133: nothing changes. -/
def execWrR6R7 (_idx : WordIndex) (_v : Word) (s : State) : Host.Outcome State Fault Refusal := .next s

/-- R132: returns 0; no reserved index aliases a mapped one. -/
def execRdR6R7 (_idx : WordIndex) (s : State) : Host.Outcome State Fault Refusal := .next (s.returnWord 0#32)

/-- R133: nothing changes. -/
def execWrR8R15 (_idx : WordIndex) (_v : Word) (s : State) : Host.Outcome State Fault Refusal := .next s

/-- R132: returns 0; no reserved index aliases a mapped one. -/
def execRdR8R15 (_idx : WordIndex) (s : State) : Host.Outcome State Fault Refusal := .next (s.returnWord 0#32)

end Sys2Proof.Machine
end

