-- ==== Sys2Proof/Machine/Dispatch.lean ====
section
/-! DEFINITION. One arm per constructor of Instr, each one direct call of its meaning. -/

namespace Sys2Proof.Machine

def exec (i : Instr) (s : State) : Host.Outcome State Fault Refusal :=
  match i with
  -- 41_commands.md
  | .nop => Sys2Proof.Machine.execNop s
  | .init => Sys2Proof.Machine.execInit s
  | .absorb8 imm8 => Sys2Proof.Machine.execAbsorb8 imm8 s
  | .absorbd n1 => Sys2Proof.Machine.execAbsorbd n1 s
  | .check => Sys2Proof.Machine.execCheck s
  -- 42_register_access.md
  | .wrCmd v => Sys2Proof.Machine.execWrCmd v s
  | .rdCmd => Sys2Proof.Machine.execRdCmd s
  | .wrData v => Sys2Proof.Machine.execWrData v s
  | .rdData => Sys2Proof.Machine.execRdData s
  | .wrExpect v => Sys2Proof.Machine.execWrExpect v s
  | .rdExpect => Sys2Proof.Machine.execRdExpect s
  | .wrResult v => Sys2Proof.Machine.execWrResult v s
  | .rdResult => Sys2Proof.Machine.execRdResult s
  | .wrCount v => Sys2Proof.Machine.execWrCount v s
  | .rdCount => Sys2Proof.Machine.execRdCount s
  | .wrStatus v => Sys2Proof.Machine.execWrStatus v s
  | .rdStatus => Sys2Proof.Machine.execRdStatus s
  | .wrR6R7 idx v => Sys2Proof.Machine.execWrR6R7 idx v s
  | .rdR6R7 idx => Sys2Proof.Machine.execRdR6R7 idx s
  | .wrR8R15 idx v => Sys2Proof.Machine.execWrR8R15 idx v s
  | .rdR8R15 idx => Sys2Proof.Machine.execRdR8R15 idx s

end Sys2Proof.Machine
end

