-- ==== Sys2Proof/Machine/Fetch.lean ====
section
/-! DEFINITION. What the host's next event is to the block: nothing, a level of the reset input, an instruction, or an
access the interface gives no behaviour for. The block fetches no instruction itself (10_state.md R34, 20_memory.md R56):
its instructions arrive as the host's transactions, one at a time, in issue order (R53). -/

namespace Sys2Proof.Machine

/-- What one step has to deal with. -/
inductive Fetched where
  /-- The host has nothing to issue. -/
  | idle
  /-- The reset input is driven. -/
  | reset (asserted : Bool)
  /-- A transaction reached the block, and this is the instruction it is. -/
  | instr (i : Instr)
  /-- The interface gives the event no behaviour. -/
  | refused (r : Refusal)
  deriving DecidableEq, Repr

/-- R182: while reset is asserted the block accepts no transaction. -/
def acceptTransaction (resetAsserted : Bool) (t : Transaction) : Fetched :=
  if resetAsserted then .refused .transactionDuringReset else .instr (decodeTransaction t)

/-- R41, R43: a byte access reaches the block as the transaction of the word index it selects. While reset is asserted every
access is refused (R182). Which refusal is named then, the access's own before the reset's, is the model's choice
(DESIGN CHOICE, log entry 5). -/
def acceptByteAccess (resetAsserted : Bool) (write : Bool) (addr width : Nat) (wdata : Word) : Fetched :=
  match locate Config.crcBase addr width with
  | .error r => .refused r
  | .ok idx => acceptTransaction resetAsserted ⟨keyOf write idx, wdata⟩

/-- The host's next event, as the block meets it. -/
def fetch (s : State) : Fetched :=
  match s.pending with
  | [] => .idle
  | .transaction t :: _ => acceptTransaction s.resetAsserted t
  | .byteAccess write addr width wdata :: _ => acceptByteAccess s.resetAsserted write addr width wdata
  | .resetLine asserted :: _ => .reset asserted

/-- The transaction placed before everything the host still issues, with the reset input released. -/
def State.issueFirst (s : State) (t : Transaction) : State :=
  { s with resetAsserted := false, pending := .transaction t :: s.pending }

/-- The host issues these transactions, in this order, before everything it already has to issue (R53, R189). -/
def State.issue (s : State) (ts : List Transaction) : State :=
  { s with pending := ts.map .transaction ++ s.pending }

end Sys2Proof.Machine
end

