-- ==== Sys2Proof/Machine/Step.lean ====
section
/-! DEFINITION. One step: the host's next event, performed whole (00_scope.md R11, 20_memory.md R53). -/

namespace Sys2Proof.Machine

/-- R11, R53: one event is one step. With nothing issued the block keeps its state (60_exceptions.md R173; DESIGN CHOICE, log entry 3). -/
def step (s : State) : Host.Outcome State Fault Refusal :=
  match fetch s with
  | .idle => .next s
  | .reset asserted => .next (s.popEvent.driveReset asserted)
  | .instr i => exec i s.popEvent
  | .refused r => .refused r

/-- The state whose very next step runs the instruction of a table word: the host issues its transaction
first (DESIGN CHOICE, log entries 1 and 2). -/
def State.withFetchWord (s : State) (nbits w : Nat) : State :=
  match tableCode nbits w with
  | some c => s.issueFirst c.transactionOf
  | none => s

end Sys2Proof.Machine
end

