-- ==== Sys2Proof/Machine/Assembler.lean ====
section
/-! DEFINITION. The host's notation for transactions (30_encoding.md R71 to R73): the command mnemonics, `wr` and `rd`, and
the pseudo-instructions with their expansions. The block never sees this notation, only the transactions. -/

namespace Sys2Proof.Machine

/-- R72: the names of the word indices. `R k` stands for the reserved index 6 + k, `R6` to `R15`. -/
inductive RegName where
  | CMD
  | DATA
  | EXPECT
  | RESULT
  | COUNT
  | STATUS
  | R (k : Fin 10)
  deriving DecidableEq, Repr

/-- R72, R33: `idx(REG)`. -/
def RegName.idx : RegName → WordIndex
  | .CMD => 0#4
  | .DATA => 1#4
  | .EXPECT => 2#4
  | .RESULT => 3#4
  | .COUNT => 4#4
  | .STATUS => 5#4
  | .R k => BitVec.ofNat 4 (6 + k.val)

/-- One line of R71 to R73's notation, with the numbers as they are written. -/
inductive AsmLine where
  | nop
  | init
  | absorb8 (imm8 : Nat)
  | absorbd (n : Nat)
  | check
  | wr (reg : RegName) (v : Word)
  | rd (reg : RegName)
  | word (v : Word)
  | tail (v : Word) (n : Nat)
  | expect (v : Word)
  | verify (v : Word)
  | bytes (m : List Byte)
  deriving DecidableEq, Repr

/-- R72: a command mnemonic alone means `wr CMD` of its word. -/
def command (w : Word) : Transaction := busWrite 0#4 w

/-- R71: the word of `crc.absorbd n`, for n from 1 to 4. -/
def absorbdWord (n : Nat) : Word := 0x03000000#32 ||| BitVec.ofNat 32 (n - 1)

/-- R73: `crc.word V`. -/
def crcWord (v : Word) : List Transaction := [busWrite 1#4 v, command (absorbdWord 4)]

/-- R73: `crc.tail V, N`. -/
def crcTail (v : Word) (n : Nat) : List Transaction := [busWrite 1#4 v, command (absorbdWord n)]

/-- R73: `crc.expect V`. -/
def crcExpect (v : Word) : List Transaction := [busWrite 2#4 v]

/-- R73: `crc.verify V`. -/
def crcVerify (v : Word) : List Transaction := [busWrite 2#4 v, command 0x04000000#32, busRead 5#4]

/-- R73: `crc.bytes`: a word for each full group of four, then a tail for the last 1 to 3 bytes, and no tail where there is
none. The bits of the tail's word that ABSORBD ignores are written as 0, as the spec's programs do (DESIGN CHOICE, log entry 7). -/
def crcBytes : List Byte → List Transaction
  | [] => []
  | [a] => crcTail (wordOfBytes a 0#8 0#8 0#8) 1
  | [a, b] => crcTail (wordOfBytes a b 0#8 0#8) 2
  | [a, b, c] => crcTail (wordOfBytes a b c 0#8) 3
  | a :: b :: c :: d :: rest => crcWord (wordOfBytes a b c d) ++ crcBytes rest

/-- R71 to R73: the transactions a line stands for; none where the assembler rejects its number. -/
def assemble : AsmLine → Option (List Transaction)
  | .nop => some [command 0x00000000#32]
  | .init => some [command 0x01000000#32]
  | .absorb8 imm8 => if imm8 ≤ 255 then some [command (0x02000000#32 ||| BitVec.ofNat 32 imm8)] else none
  | .absorbd n => if 1 ≤ n ∧ n ≤ 4 then some [command (absorbdWord n)] else none
  | .check => some [command 0x04000000#32]
  | .wr reg v => some [busWrite reg.idx v]
  | .rd reg => some [busRead reg.idx]
  | .word v => some (crcWord v)
  | .tail v n => if 1 ≤ n ∧ n ≤ 3 then some (crcTail v n) else none
  | .expect v => some (crcExpect v)
  | .verify v => some (crcVerify v)
  | .bytes m => some (crcBytes m)

end Sys2Proof.Machine
end

