-- ==== Sys2Proof/Machine/Chunk.lean ====
section
/-! DEFINITION. The checksum contract on chunks (43_chunk_framing.md): what is checksummed, where the checksum lies, and
the host's two procedures. The block never sees a chunk; these are the host's obligations, as lists of the block's transactions. -/

namespace Sys2Proof.Machine

/-- R141: a chunk's four type bytes, its payload and its stored checksum. Its Length is the payload's byte count. -/
structure Chunk where
  t0       : Byte
  t1       : Byte
  t2       : Byte
  t3       : Byte
  payload  : List Byte
  checksum : Word
  deriving DecidableEq, Repr

/-- R151: the source limits a payload to 2^32 - 1 bytes, so that its Length is a 32-bit value. -/
def payloadLimit : Nat := 2 ^ 32 - 1

/-- R151; 93_implementation_defined.md U1: the chunk has a Length. -/
def Chunk.fits (c : Chunk) : Bool := decide (c.payload.length ≤ payloadLimit)

/-- R140: the bytes the checksum covers, `type ++ payload`; the Length is not among them. -/
def Chunk.covered (c : Chunk) : List Byte := [c.t0, c.t1, c.t2, c.t3] ++ c.payload

/-- R141, R45: the layout of a chunk, every field big-endian. Only a chunk that fits has a Length, and the host serialises no
other (`Chunk.serialise`). -/
def Chunk.bytes (c : Chunk) : List Byte :=
  wordBytes (BitVec.ofNat 32 c.payload.length) ++ c.covered ++ wordBytes c.checksum

/-- R144, R151; U1: the bytes of a chunk that fits; the host refuses any other. -/
def Chunk.serialise (c : Chunk) : Option (List Byte) := if c.fits then some c.bytes else none

/-- The big-endian 32-bit field at an offset of a byte buffer (R46, R141). -/
def wordAt (m : List Byte) (i : Nat) : Word :=
  wordOfBytes (m.getD i 0#8) (m.getD (i + 1) 0#8) (m.getD (i + 2) 0#8) (m.getD (i + 3) 0#8)

/-- R141, R147: the chunk at the head of a buffer. Its checksum is at offset 8 + Length, which need not be the buffer's last
4 bytes. Framing errors (a short buffer) are the host's to detect, and out of scope (00_scope.md R6;
DESIGN CHOICE, log entry 10). -/
def chunkAt (m : List Byte) : Chunk :=
  { t0 := m.getD 4 0#8, t1 := m.getD 5 0#8, t2 := m.getD 6 0#8, t3 := m.getD 7 0#8,
    payload := (m.drop 8).take (wordAt m 0).toNat,
    checksum := wordAt m (8 + (wordAt m 0).toNat) }

/-- R144, R146: INIT, the type word and the payload bytes, the part both procedures share. -/
def feedChunk (c : Chunk) : List Transaction :=
  command 0x01000000#32 :: (crcWord (wordOfBytes c.t0 c.t1 c.t2 c.t3) ++ crcBytes c.payload)

/-- R144: the transactions of the generator procedure; they do not use the chunk's checksum. The block is defined for any
number of bytes (R151, U1), and so are these. -/
def generatorTransactions (c : Chunk) : List Transaction := feedChunk c ++ [busRead 3#4]

/-- R144, R151; U1, U2: the generator procedure; the host refuses a payload beyond the limit, before any transaction. -/
def generator (c : Chunk) : Option (List Transaction) := if c.fits then some (generatorTransactions c) else none

/-- R146: the transactions of the checker procedure. -/
def checkerTransactions (c : Chunk) : List Transaction := feedChunk c ++ crcVerify c.checksum

/-- R146, R151; U1: the checker procedure; no parsed chunk has a payload beyond the limit, and the host refuses one. -/
def checker (c : Chunk) : Option (List Transaction) := if c.fits then some (checkerTransactions c) else none

/-- R148: with HOST_VERIFY_ON_PARSE the host rejects a parsed chunk whose CHECK gives MATCH = 0, and without it none.
The policy reads bit 0 of STATUS (DEDUCED, log entry 8). -/
def hostAccepts (verifyOnParse : Bool) (status : Word) : Bool := status.getLsbD 0 || !verifyOnParse

/-- R148: what the platform's own host does with the STATUS its checker procedure returned; the parameter is OPEN. -/
def platformAccepts (status : Word) : Bool := hostAccepts Config.hostVerifyOnParse status

end Sys2Proof.Machine
end

