-- ==== Sys2Proof/Safety.lean ====
section
/-! DEFINITION. What claims about runs are stated in: the invariant of the reachable states (10_state.md R32; log entry 4),
what the block's S, COUNT and WRAP say about the bytes absorbed so far (40_crc_function.md R85), and the observation of a run
(70_reset_and_hazards.md R189). -/

namespace Sys2Proof.Machine

/-- R32: MATCH says what a comparison now would say while CHECKED is 1, and is 0 while CHECKED is 0. -/
def Block.coherent (b : Block) : Prop :=
  (b.CHECKED = true → b.MATCH = (b.result == b.EXPECT)) ∧ (b.CHECKED = false → b.MATCH = false)

/-- The machine's invariant: a coherent block (R32), and the reset state while reset is asserted, which is the model's choice
(DESIGN CHOICE, log entry 4): R182 gives the state at the release only. -/
def State.inv (s : State) : Prop :=
  s.block.coherent ∧ (s.resetAsserted = true → s.block = Block.reset)

/-- R85, R23, R30: the block stands where INIT and then these bytes, absorbed in order, leave it. -/
def Block.tracks (b : Block) (m : List Byte) : Prop :=
  b.S = crcRaw crcInit m ∧ b.COUNT = BitVec.ofNat 32 m.length ∧ b.WRAP = decide (2 ^ 32 ≤ m.length)

/-- The bytes absorbed since the last INIT, after an instruction that meets this block. -/
def absorbedAfter (b : Block) (m : List Byte) (i : Instr) : List Byte :=
  match i.command? with
  | some .init => []
  | some (.absorb8 imm8) => m ++ [imm8]
  | some (.absorbd n1) => m ++ absorbdBytes b.DATA n1
  | some .nop => m
  | some .check => m
  | some .illegal => m
  | none => m

/-- The bytes absorbed since the last INIT or reset, after one step (R85). -/
def State.absorbedAfterStep (s : State) (m : List Byte) : List Byte :=
  match fetch s with
  | .idle => m
  | .reset asserted => if asserted || s.resetAsserted then [] else m
  | .instr i => absorbedAfter s.block m i
  | .refused _ => m

/-- The command a step performs, if it performs one. -/
def State.command? (s : State) : Option Command :=
  match fetch s with
  | .instr i => i.command?
  | .idle => none
  | .reset _ => none
  | .refused _ => none

/-- A step that resets the block: the reset input is asserted, or released after it was. -/
def State.resets (s : State) : Bool :=
  match fetch s with
  | .reset asserted => asserted || s.resetAsserted
  | .instr _ => false
  | .idle => false
  | .refused _ => false

/-- R41, R53: the block after one transaction. -/
def Block.after (b : Block) (t : Transaction) : Block := if t.we then b.writeIndex t.idx t.wdata else b

/-- R189: the observation of a run of transactions that begins at this block: the values its reads return, in issue order,
each the value all earlier transactions leave behind (R53), and the block after the last one. -/
def Block.observe (b : Block) : List Transaction → List Word × Block
  | [] => ([], b)
  | t :: ts =>
    let rest := (b.after t).observe ts
    (if t.we then rest.1 else b.readIndex t.idx :: rest.1, rest.2)

end Sys2Proof.Machine
end

