-- ==== Sys2Proof/Certificates/Slice0/Obligations.lean ====
section
/-! DEFINITION. The statements for the provers. Each docstring names the rule of spec/ it formalises; where a clause rests
on the model's own choice, the docstring says so and names the log entry. -/

open Sys2Proof Sys2Proof.Machine

/-! ### Reset and the reset input -/

/-- 10_state.md section 6: the table of reset values (R37), and what RESULT, STATUS and CMD read just after reset, which the spec
itself derives from that table, R22 and R26. -/
def Obligations.ResetGivesEveryElementItsValue : Prop :=
  State.reset.block = { S := 0xFFFFFFFF#32, COUNT := 0#32, DATA := 0#32, EXPECT := 0#32,
                        MATCH := false, CHECKED := false, ILLEGAL := false, WRAP := false } ∧
  exec .rdResult State.reset = .next { State.reset with returned := [0#32] } ∧
  exec .rdStatus State.reset = .next { State.reset with returned := [0#32] } ∧
  exec .rdCmd State.reset = .next { State.reset with returned := [0#32] }

/-- 70_reset_and_hazards.md R180: asserting and releasing reset, between two transactions and from any state, sets every
element to its reset value, and the first transaction after it is performed on exactly that state. -/
def Obligations.ResetEventSetsEveryElement : Prop :=
  ∀ (s : State) (t : Transaction) (rest : List HostEvent),
    s.pending = .resetLine true :: .resetLine false :: .transaction t :: rest →
    ∃ u v : State, step s = .next u ∧ step u = .next v ∧
      v.block = { S := 0xFFFFFFFF#32, COUNT := 0#32, DATA := 0#32, EXPECT := 0#32,
                  MATCH := false, CHECKED := false, ILLEGAL := false, WRAP := false } ∧
      v.pending = .transaction t :: rest ∧ step v = exec (decodeTransaction t) { v with pending := rest }

/-- 70_reset_and_hazards.md section 1 (R182): while reset is asserted a transaction is refused; when it is released the state is
R180's; so a reset from any state, in the middle of a procedure too, returns S to 0xFFFFFFFF. The second clause is about every
byte access: that one outside the window, or wider than 32 bits, is refused is the model's choice (log entry 5). -/
def Obligations.NothingIsAcceptedWhileResetIsAsserted : Prop :=
  (∀ (s : State) (t : Transaction) (rest : List HostEvent), s.resetAsserted = true →
    s.pending = .transaction t :: rest → step s = .refused .transactionDuringReset) ∧
  (∀ (s : State) (write : Bool) (addr width : Nat) (v : Word) (rest : List HostEvent), s.resetAsserted = true →
    s.pending = .byteAccess write addr width v :: rest → ∃ r : Refusal, step s = .refused r) ∧
  (∀ (s : State) (rest : List HostEvent), s.resetAsserted = true → s.pending = .resetLine false :: rest →
    ∃ t : State, step s = .next t ∧ t.resetAsserted = false ∧ t.pending = rest ∧
      t.block = { S := 0xFFFFFFFF#32, COUNT := 0#32, DATA := 0#32, EXPECT := 0#32,
                  MATCH := false, CHECKED := false, ILLEGAL := false, WRAP := false }) ∧
  (∀ (s : State) (rest : List HostEvent), s.pending = .resetLine true :: .resetLine false :: rest →
    ∃ t u : State, step s = .next t ∧ t.resetAsserted = true ∧ step t = .next u ∧ u.resetAsserted = false ∧
      u.pending = rest ∧ u.block.S = 0xFFFFFFFF#32)

/-- The invariant of 10_state.md R32 (which the spec derives) at reset. The invariant's second clause, that the block is in its
reset state while the reset input is asserted, is the model's choice (log entry 4). -/
def Obligations.CheckFlagsAreCoherentAtReset : Prop := State.reset.inv

/-- 10_state.md R32 (which the spec derives): CHECKED = 1 implies MATCH = (RESULT == EXPECT), and CHECKED = 0 implies
MATCH = 0. Every step keeps it, from every state that has it. The invariant's second clause, that the block is in its reset
state while the reset input is asserted, is the model's choice (log entry 4): R182 gives the state at the release only. -/
def Obligations.EveryStepKeepsTheCheckFlagsCoherent : Prop :=
  ∀ s t : State, s.inv → step s = .next t → t.inv

/-! ### Encoding -/

/-- Words written out from 30_encoding.md R61, R63 and 95_test_vectors.md section 2.6. -/
def Obligations.WrittenOutWordsDecode : Prop :=
  decode (.command 0b00000000000000000000000000000000#32) = .ok .nop ∧
  decode (.command 0b00000001000000000000000000000000#32) = .ok .init ∧
  decode (.command 0b00000010000000000000000010100101#32) = .ok (.absorb8 0xA5#8) ∧
  decode (.command 0b00000011000000000000000000000011#32) = .ok (.absorbd 3#2) ∧
  decode (.command 0b00000100000000000000000000000000#32) = .ok .check ∧
  decodeCommand 0x01800000#32 = .illegal ∧ decodeCommand 0x02000100#32 = .illegal ∧
  decodeCommand 0x03000004#32 = .illegal ∧ decodeCommand 0x05000000#32 = .illegal ∧
  decode (.transaction ⟨0b10001#5, 0x65210000#32⟩) = .ok (.wrData 0x65210000#32) ∧
  decode (.transaction ⟨0b00011#5, 0#32⟩) = .ok .rdResult ∧
  decode (.transaction ⟨0b11001#5, 1#32⟩) = .ok (.wrR8R15 9#4 1#32)

/-- 30_encoding.md R67: every command word yields exactly one of the five commands or Illegal, by these tests. -/
def Obligations.CommandWordsDecodeByTheirTests : Prop :=
  ∀ w : Word,
    (w = 0x00000000#32 → decodeCommand w = .nop) ∧
    (w = 0x01000000#32 → decodeCommand w = .init) ∧
    (w &&& 0xFFFFFF00#32 = 0x02000000#32 → decodeCommand w = .absorb8 (w.extractLsb' 0 8)) ∧
    (w &&& 0xFFFFFFFC#32 = 0x03000000#32 → decodeCommand w = .absorbd (w.extractLsb' 0 2)) ∧
    (w = 0x04000000#32 → decodeCommand w = .check) ∧
    (w ≠ 0x00000000#32 → w ≠ 0x01000000#32 → w &&& 0xFFFFFF00#32 ≠ 0x02000000#32 →
      w &&& 0xFFFFFFFC#32 ≠ 0x03000000#32 → w ≠ 0x04000000#32 → decodeCommand w = .illegal)

/-- 30_encoding.md R63: a word is legal exactly when it lies on a row, at most one row takes it, words of OP 0x05 to 0xFF
are illegal, and the rows hold 1, 1, 256, 4 and 1 words. -/
def Obligations.LegalWordsLieOnExactlyOneRow : Prop :=
  (∀ w : Word, decodeCommand w ≠ .illegal ↔ ∃ r ∈ commandRows, r.accepts (.command w) = true) ∧
  (∀ (w : Word), ∀ r ∈ commandRows, ∀ r' ∈ commandRows,
    r.accepts (.command w) = true → r'.accepts (.command w) = true → r = r') ∧
  (∀ w : Word, 5 ≤ (opOf w).toNat → decodeCommand w = .illegal) ∧
  (∀ w : Word, decodeCommand w = .nop ↔ w = 0x00000000#32) ∧
  (∀ w : Word, decodeCommand w = .init ↔ w = 0x01000000#32) ∧
  (∃ l : List Word, l.Nodup ∧ l.length = 256 ∧ ∀ w : Word, w ∈ l ↔ ∃ x : Byte, decodeCommand w = .absorb8 x) ∧
  (∃ l : List Word, l.Nodup ∧ l.length = 4 ∧ ∀ w : Word, w ∈ l ↔ ∃ n1 : BitVec 2, decodeCommand w = .absorbd n1) ∧
  (∀ w : Word, decodeCommand w = .check ↔ w = 0x04000000#32)

/-- 30_encoding.md section 4 (R68, which the spec derives from R63): a word is illegal exactly when its OP is 0x05 to 0xFF
or a reserved OPERAND bit of a legal OP is set; exactly 263 words are legal. -/
def Obligations.IllegalWordsHaveAnUndefinedOpOrAReservedBit : Prop :=
  (∀ w : Word, decodeCommand w = .illegal ↔
    5 ≤ (opOf w).toNat ∨
    (opOf w = 0x00#8 ∧ w.extractLsb' 0 24 ≠ 0#24) ∨ (opOf w = 0x01#8 ∧ w.extractLsb' 0 24 ≠ 0#24) ∨
    (opOf w = 0x02#8 ∧ w.extractLsb' 8 16 ≠ 0#16) ∨ (opOf w = 0x03#8 ∧ w.extractLsb' 2 22 ≠ 0#22) ∨
    (opOf w = 0x04#8 ∧ w.extractLsb' 0 24 ≠ 0#24)) ∧
  (∃ l : List Word, l.Nodup ∧ l.length = 263 ∧ ∀ w : Word, w ∈ l ↔ decodeCommand w ≠ .illegal)

/-- 30_encoding.md section 1 (R61): the key is {WE, IDX}, and each of its 32 values selects its row, whatever the data lines.
That a read has data lines at all, and ignores them, is the model's choice (log entry 6). -/
def Obligations.TransactionKeysSelectTheirRows : Prop :=
  (∀ t : Transaction, t.key = BitVec.ofBool t.we ++ t.idx) ∧
  (∀ v : Word,
    decodeTransaction ⟨0b10000#5, v⟩ = .wrCmd v ∧ decodeTransaction ⟨0b00000#5, v⟩ = .rdCmd ∧
    decodeTransaction ⟨0b10001#5, v⟩ = .wrData v ∧ decodeTransaction ⟨0b00001#5, v⟩ = .rdData ∧
    decodeTransaction ⟨0b10010#5, v⟩ = .wrExpect v ∧ decodeTransaction ⟨0b00010#5, v⟩ = .rdExpect ∧
    decodeTransaction ⟨0b10011#5, v⟩ = .wrResult v ∧ decodeTransaction ⟨0b00011#5, v⟩ = .rdResult ∧
    decodeTransaction ⟨0b10100#5, v⟩ = .wrCount v ∧ decodeTransaction ⟨0b00100#5, v⟩ = .rdCount ∧
    decodeTransaction ⟨0b10101#5, v⟩ = .wrStatus v ∧ decodeTransaction ⟨0b00101#5, v⟩ = .rdStatus) ∧
  (∀ (idx : WordIndex) (v : Word), 6 ≤ idx.toNat → idx.toNat ≤ 7 →
    decodeTransaction ⟨1#1 ++ idx, v⟩ = .wrR6R7 idx v ∧ decodeTransaction ⟨0#1 ++ idx, v⟩ = .rdR6R7 idx) ∧
  (∀ (idx : WordIndex) (v : Word), 8 ≤ idx.toNat →
    decodeTransaction ⟨1#1 ++ idx, v⟩ = .wrR8R15 idx v ∧ decodeTransaction ⟨0#1 ++ idx, v⟩ = .rdR8R15 idx)

/-- 30_encoding.md sections 1 to 3: no bit of any encoding is dropped; every well-formed instruction, at every operand its
encoding admits, is what its own encoding decodes to. -/
def Obligations.DecodingAnEncodingGivesTheInstruction : Prop :=
  ∀ i : Instr, i.wf = true → decode (encode i) = .ok i

/-- The other direction: a code that decodes is the encoding of what it decodes to, up to the data lines a read ignores
(log entry 6). So no two codes that differ elsewhere decode to one instruction. -/
def Obligations.EncodingADecodedCodeGivesTheCode : Prop :=
  ∀ (c : Code) (i : Instr), decode c = .ok i → encode i = c.normal

/-- 30_encoding.md R60, R61, R63 and opcode_table.json: what a code decodes to is well-formed, its own row takes the code,
and no other row of the table does. -/
def Obligations.DecodedCodesLieOnOneRowOfTheTable : Prop :=
  ∀ (c : Code) (i : Instr), decode c = .ok i →
    i.wf = true ∧ i.row ∈ opcodeTable ∧ i.row.accepts c = true ∧ ∀ r ∈ opcodeTable, r.accepts c = true → r = i.row

/-- 30_encoding.md R71: the words the mnemonics stand for, and the numbers the assembler rejects. A rejected number is never
encoded as an illegal word. -/
def Obligations.AssembledCommandsAreLegalWords : Prop :=
  assemble .nop = some [command 0x00000000#32] ∧ decodeCommand 0x00000000#32 = .nop ∧
  assemble .init = some [command 0x01000000#32] ∧ decodeCommand 0x01000000#32 = .init ∧
  assemble .check = some [command 0x04000000#32] ∧ decodeCommand 0x04000000#32 = .check ∧
  (∀ k : Nat, k ≤ 255 → assemble (.absorb8 k) = some [command (0x02000000#32 ||| BitVec.ofNat 32 k)] ∧
    decodeCommand (0x02000000#32 ||| BitVec.ofNat 32 k) = .absorb8 (BitVec.ofNat 8 k)) ∧
  (∀ k : Nat, 255 < k → assemble (.absorb8 k) = none) ∧
  (∀ n : Nat, 1 ≤ n → n ≤ 4 → assemble (.absorbd n) = some [command (0x03000000#32 ||| BitVec.ofNat 32 (n - 1))] ∧
    decodeCommand (0x03000000#32 ||| BitVec.ofNat 32 (n - 1)) = .absorbd (BitVec.ofNat 2 (n - 1))) ∧
  (∀ n : Nat, n = 0 ∨ 4 < n → assemble (.absorbd n) = none)

/-! ### The step -/

/-- 20_memory.md R53, 00_scope.md R11: a step performs the host's next transaction, decoded, and takes it off the list; a
command word written to CMD runs as the command it decodes to. -/
def Obligations.StepRunsTheDecodedInstruction : Prop :=
  (∀ (s : State) (t : Transaction) (rest : List HostEvent), s.resetAsserted = false →
    s.pending = .transaction t :: rest → step s = exec (decodeTransaction t) { s with pending := rest }) ∧
  (∀ (s : State) (w : Word) (i : Instr) (rest : List HostEvent), s.resetAsserted = false →
    s.pending = .transaction ⟨0b10000#5, w⟩ :: rest → decode (.command w) = .ok i →
    step s = exec i { s with pending := rest })

/-- The host's two views of a table word agree: the very next step of `withFetchWord` runs what `decodeTableWord` reads. Both
views are the model's choice: a word's width selects its layer (log entry 2), and placing it issues its transaction first and
releases reset (log entry 1). -/
def Obligations.TableWordRunsAsTheNextStep : Prop :=
  ∀ (s : State) (nbits w : Nat) (i : Instr), decodeTableWord nbits w = some i →
    step (s.withFetchWord nbits w) = exec i { s with resetAsserted := false }

/-- 60_exceptions.md R173: with nothing issued the block keeps its state, for any number of steps (that a step with nothing
issued is a step at all is the model's choice, log entry 3). -/
def Obligations.IdleBlockKeepsItsState : Prop :=
  ∀ (k : Nat) (s : State), s.pending = [] → Sys2Proof.core.run k s = .next s

/-- 20_memory.md R41: an access of 32 bits at CRC_BASE + 4*idx is the transaction of word index idx; a write returns
nothing and a read returns one word. -/
def Obligations.ByteAddressesSelectTheirIndex : Prop :=
  ∀ (s : State) (write : Bool) (idx : WordIndex) (v : Word) (rest : List HostEvent), s.resetAsserted = false →
    s.pending = .byteAccess write (Config.crcBase + 4 * idx.toNat) 4 v :: rest →
    step s = exec (decodeTransaction ⟨BitVec.ofBool write ++ idx, v⟩) { s with pending := rest } ∧
    ∃ t : State, step s = .next t ∧ (write = true → t.returned = s.returned) ∧
      (write = false → ∃ r : Word, t.returned = s.returned ++ [r])

/-- 20_memory.md section 1 (R43) for misaligned and narrower accesses of the window; that wider ones are refused as well rests on
93_implementation_defined.md U9 and log entry 5, and so does which of the two refusals is named. -/
def Obligations.MisalignedOrWrongWidthAccessesAreRefused : Prop :=
  ∀ (s : State) (write : Bool) (addr width : Nat) (v : Word) (rest : List HostEvent),
    s.pending = .byteAccess write addr width v :: rest → Config.crcBase ≤ addr → addr < Config.crcBase + 64 →
    ((addr - Config.crcBase) % 4 ≠ 0 ∨ width ≠ 4) →
    step s = .refused .misalignedAccess ∨ step s = .refused .accessNot32Bits

/-- 60_exceptions.md R160: every instruction completes in every state, a read returns a value, and there is no fault. What
the host still issues and the reset input are left alone. -/
def Obligations.EveryInstructionCompletes : Prop :=
  (∀ (i : Instr) (s : State), ∃ t : State, exec i s = .next t ∧
    (i.isRead = true → ∃ v : Word, t.returned = s.returned ++ [v]) ∧ (i.isRead = false → t.returned = s.returned) ∧
    t.pending = s.pending ∧ t.resetAsserted = s.resetAsserted) ∧
  (Fault → False)

/-- 70_reset_and_hazards.md R189 and 20_memory.md R53: a run of transactions always ends. It performs them one at a time, in
issue order: the first by exec, the rest from the state that leaves. At its end the block is where the transactions' effects,
one after another, leave it, and the reads have returned one value each, in issue order, each the value that all earlier
transactions leave behind. -/
def Obligations.RunsOfTransactionsAlwaysEnd : Prop :=
  (∀ (t : Transaction) (ts : List Transaction) (s : State), s.resetAsserted = false →
    ∃ u : State, exec (decodeTransaction t) s = .next u ∧ u.resetAsserted = false ∧
      u.block = s.block.after t ∧ u.returned = s.returned ++ (if t.we then [] else [s.block.readIndex t.idx]) ∧
      Sys2Proof.core.run (ts.length + 1) (s.issue (t :: ts)) = Sys2Proof.core.run ts.length (u.issue ts)) ∧
  (∀ (ts : List Transaction) (s : State), s.resetAsserted = false →
    Sys2Proof.core.run ts.length (s.issue ts)
      = .next { s with block := (s.block.observe ts).2, returned := s.returned ++ (s.block.observe ts).1 } ∧
    (s.block.observe ts).2 = ts.foldl Block.after s.block ∧
    (s.block.observe ts).1.length = (ts.filter (fun u => !u.we)).length) ∧
  (∀ (b : Block) (l m : List Transaction),
    (b.observe (l ++ m)).1 = (b.observe l).1 ++ ((b.observe l).2.observe m).1)

/-! ### The commands -/

/-- 41_commands.md R101: NOP changes no state element; any nonzero word with OP = 0x00 is illegal, not a NOP. -/
def Obligations.NopChangesNothing : Prop :=
  encode .nop = .command 0x00000000#32 ∧ (∀ s : State, exec .nop s = .next s) ∧
  (∀ w : Word, opOf w = 0x00#8 → w ≠ 0x00000000#32 → decodeCommand w = .illegal)

/-- 41_commands.md R102: what INIT sets and what it keeps; twice is once; no other command clears ILLEGAL or WRAP. -/
def Obligations.InitStartsANewChecksum : Prop :=
  encode .init = .command 0x01000000#32 ∧
  (∀ s : State,
    let t : State := { s with block := { S := 0xFFFFFFFF#32, COUNT := 0#32, DATA := s.block.DATA, EXPECT := s.block.EXPECT,
                                         MATCH := false, CHECKED := false, ILLEGAL := false, WRAP := false } }
    exec .init s = .next t ∧ exec .init t = .next t) ∧
  (∀ (i : Instr) (s t : State), exec i s = .next t →
    (s.block.ILLEGAL = true ∧ t.block.ILLEGAL = false) ∨ (s.block.WRAP = true ∧ t.block.WRAP = false) →
    i.command? = some .init)

/-- 41_commands.md R103, on R100's Absorb: every field after ABSORB8; a word of OP 0x02 with any of bits 23:8 set is
illegal and absorbs nothing. -/
def Obligations.Absorb8FeedsItsByte : Prop :=
  (∀ x : Byte, encode (.absorb8 x) = .command (0x02000000#32 ||| x.setWidth 32)) ∧
  (∀ (s : State) (x : Byte), exec (.absorb8 x) s = .next { s with block := { s.block with
      S := byteStep s.block.S x, COUNT := s.block.COUNT + 1#32, MATCH := false, CHECKED := false,
      WRAP := s.block.WRAP || s.block.COUNT == 0xFFFFFFFF#32 } }) ∧
  (∀ (s : State) (w : Word), opOf w = 0x02#8 → w.extractLsb' 8 16 ≠ 0#16 →
    exec (.wrCmd w) s = .next { s with block := { s.block with ILLEGAL := true } })

/-- 41_commands.md R104: ABSORBD absorbs the top n = N1 + 1 bytes of DATA, most significant first, sets WRAP if COUNT
passes 0xFFFFFFFF at any of them, and leaves DATA and everything else; a word of OP 0x03 with any of bits 23:2 set is
illegal and absorbs nothing. -/
def Obligations.AbsorbdFeedsTheTopBytesOfData : Prop :=
  (∀ n1 : BitVec 2, encode (.absorbd n1) = .command (0x03000000#32 ||| n1.setWidth 32)) ∧
  (∀ (s : State) (n1 : BitVec 2),
    let d := s.block.DATA
    let m : List Byte := [d.extractLsb' 24 8, d.extractLsb' 16 8, d.extractLsb' 8 8, d.extractLsb' 0 8].take (n1.toNat + 1)
    exec (.absorbd n1) s = .next { s with block := { s.block with
      S := crcRaw s.block.S m, COUNT := s.block.COUNT + BitVec.ofNat 32 (n1.toNat + 1), MATCH := false, CHECKED := false,
      WRAP := s.block.WRAP || decide (2 ^ 32 ≤ s.block.COUNT.toNat + (n1.toNat + 1)) } }) ∧
  (∀ (s : State) (w : Word), opOf w = 0x03#8 → w.extractLsb' 2 22 ≠ 0#22 →
    exec (.wrCmd w) s = .next { s with block := { s.block with ILLEGAL := true } })

/-- 41_commands.md R100: Absorb, line by line, is what ABSORB8 performs once and ABSORBD once for each of its 1 to 4 bytes. -/
def Obligations.AbsorbdIsAbsorbOncePerByte : Prop :=
  let after (s : State) (x : Byte) : State := { s with block := { s.block with
    S := byteStep s.block.S x, COUNT := s.block.COUNT + 1#32, MATCH := false, CHECKED := false,
    WRAP := if s.block.COUNT = 0xFFFFFFFF#32 then true else s.block.WRAP } }
  (∀ (s : State) (x : Byte), exec (.absorb8 x) s = .next (after s x)) ∧
  (∀ s : State,
    let d0 := s.block.DATA.extractLsb' 24 8
    let d1 := s.block.DATA.extractLsb' 16 8
    let d2 := s.block.DATA.extractLsb' 8 8
    let d3 := s.block.DATA.extractLsb' 0 8
    exec (.absorbd 0#2) s = .next (after s d0) ∧
    exec (.absorbd 1#2) s = .next (after (after s d0) d1) ∧
    exec (.absorbd 2#2) s = .next (after (after (after s d0) d1) d2) ∧
    exec (.absorbd 3#2) s = .next (after (after (after (after s d0) d1) d2) d3))

/-- 41_commands.md R105: CHECK compares all 32 bits of RESULT with EXPECT and changes MATCH and CHECKED only; twice gives
the same flags; absorbing afterwards clears both again; straight after reset it gives MATCH = 1. -/
def Obligations.CheckComparesAllOfTheResult : Prop :=
  encode .check = .command 0x04000000#32 ∧
  (∀ s : State,
    let t : State := { s with block := { s.block with
      MATCH := decide (s.block.S ^^^ 0xFFFFFFFF#32 = s.block.EXPECT), CHECKED := true } }
    exec .check s = .next t ∧ exec .check t = .next t ∧
    ∀ x : Byte, ∃ u : State, exec (.absorb8 x) t = .next u ∧ u.block.MATCH = false ∧ u.block.CHECKED = false) ∧
  exec .check State.reset = .next { State.reset with block := { State.reset.block with MATCH := true, CHECKED := true } }

/-- 60_exceptions.md R161: an illegal command word sets ILLEGAL and has no other effect. -/
def Obligations.IllegalWordsSetOnlyIllegal : Prop :=
  (∀ (s : State) (w : Word), decodeCommand w = .illegal →
    exec (.wrCmd w) s = .next { s with block := { s.block with ILLEGAL := true } }) ∧
  (∀ s : State, exec (.wrCmd 0x02000100#32) s = .next { s with block := { s.block with ILLEGAL := true } })

/-- 42_register_access.md R120: a write to CMD performs the command its word decodes to, whole, in that transaction. -/
def Obligations.WritingCmdPerformsTheCommand : Prop :=
  (∀ v : Word, decodeTransaction ⟨0b10000#5, v⟩ = .wrCmd v) ∧
  (∀ (s : State) (w : Word),
    (decodeCommand w = .nop → exec (.wrCmd w) s = exec .nop s) ∧
    (decodeCommand w = .init → exec (.wrCmd w) s = exec .init s) ∧
    (∀ x : Byte, decodeCommand w = .absorb8 x → exec (.wrCmd w) s = exec (.absorb8 x) s) ∧
    (∀ n1 : BitVec 2, decodeCommand w = .absorbd n1 → exec (.wrCmd w) s = exec (.absorbd n1) s) ∧
    (decodeCommand w = .check → exec (.wrCmd w) s = exec .check s) ∧
    (decodeCommand w = .illegal → exec (.wrCmd w) s = .next { s with block := { s.block with ILLEGAL := true } }) ∧
    ∃ t : State, exec (.wrCmd w) s = .next t)

/-- 70_reset_and_hazards.md section 1 (R181, which the spec derives): INIT's state is reset's but for DATA and EXPECT, and
equals it exactly when both were 0. -/
def Obligations.InitIsResetButForDataAndExpect : Prop :=
  ∀ s : State, ∃ t : State, exec .init s = .next t ∧
    t.block = { State.reset.block with DATA := s.block.DATA, EXPECT := s.block.EXPECT } ∧
    (t.block = State.reset.block ↔ s.block.DATA = 0#32 ∧ s.block.EXPECT = 0#32)

/-- 20_memory.md section 2 (R49) and 41_commands.md section 4: with n < 4 the bits of DATA below the top n bytes do not
matter, to S or COUNT or any flag. -/
def Obligations.IgnoredBitsOfDataDoNotMatter : Prop :=
  ∀ (s : State) (d : Word) (n1 : BitVec 2),
    d >>> (24 - 8 * n1.toNat) = s.block.DATA >>> (24 - 8 * n1.toNat) →
    ∃ t u : State, exec (.absorbd n1) s = .next t ∧
      exec (.absorbd n1) { s with block := { s.block with DATA := d } } = .next u ∧
      u.block = { t.block with DATA := d } ∧ u.returned = t.returned

/-- 20_memory.md R44: DATA is absorbed most significant byte first; the big-endian value of four stream bytes, written to
DATA, is absorbed in stream order, stopping after n bytes. -/
def Obligations.StreamBytesAreAbsorbedInOrder : Prop :=
  (∀ (s : State) (n1 : BitVec 2), ∃ t : State, exec (.absorbd n1) s = .next t ∧
    t.block.S = crcRaw s.block.S ([s.block.DATA.extractLsb' 24 8, s.block.DATA.extractLsb' 16 8,
      s.block.DATA.extractLsb' 8 8, s.block.DATA.extractLsb' 0 8].take (n1.toNat + 1))) ∧
  (∀ (s : State) (m0 m1 m2 m3 : Byte) (n1 : BitVec 2), ∃ t u : State,
    exec (.wrData (m0 ++ m1 ++ m2 ++ m3)) s = .next t ∧ exec (.absorbd n1) t = .next u ∧
    u.block.S = crcRaw s.block.S ([m0, m1, m2, m3].take (n1.toNat + 1)))

/-! ### Register access -/

/-- 10_state.md R33: the whole table of the window, read side and write side, for every index; the only hardwired values are
CMD's 0, STATUS bits 31:4 and the reserved indices' 0. -/
def Obligations.EveryIndexReadsAndWritesAsTheTableSays : Prop :=
  (∀ (s : State) (t : Transaction), t.we = false →
    exec (decodeTransaction t) s = .next { s with returned := s.returned ++ [
      if t.idx = 1#4 then s.block.DATA else if t.idx = 2#4 then s.block.EXPECT
      else if t.idx = 3#4 then s.block.S ^^^ 0xFFFFFFFF#32 else if t.idx = 4#4 then s.block.COUNT
      else if t.idx = 5#4 then 0#28 ++ BitVec.ofBool s.block.WRAP ++ BitVec.ofBool s.block.ILLEGAL ++
        BitVec.ofBool s.block.CHECKED ++ BitVec.ofBool s.block.MATCH
      else 0#32] }) ∧
  (∀ (s : State) (t : Transaction), t.we = true →
    (t.idx = 0#4 → ∃ u : State, exec (decodeTransaction t) s = .next u ∧ u.returned = s.returned ∧
      u.block.DATA = s.block.DATA ∧ u.block.EXPECT = s.block.EXPECT ∧
      ∀ i : Instr, decode (.command t.wdata) = .ok i → exec i s = .next u) ∧
    (t.idx = 1#4 → exec (decodeTransaction t) s = .next { s with block := { s.block with DATA := t.wdata } }) ∧
    (t.idx = 2#4 → exec (decodeTransaction t) s = .next { s with block := { s.block with
      EXPECT := t.wdata, MATCH := false, CHECKED := false } }) ∧
    (3 ≤ t.idx.toNat → exec (decodeTransaction t) s = .next s))

/-- 42_register_access.md R121 and R132: CMD and every reserved index read 0, whatever the state, and change nothing. -/
def Obligations.CmdAndReservedIndicesReadZero : Prop :=
  (∀ v : Word, decodeTransaction ⟨0b00000#5, v⟩ = .rdCmd) ∧
  (∀ s : State, exec .rdCmd s = .next { s with returned := s.returned ++ [0#32] }) ∧
  (∀ (idx : WordIndex) (v : Word), 6 ≤ idx.toNat → ∃ i : Instr, decodeTransaction ⟨0#1 ++ idx, v⟩ = i ∧
    (i = .rdR6R7 idx ∨ i = .rdR8R15 idx)) ∧
  (∀ (s : State) (idx : WordIndex), exec (.rdR6R7 idx) s = .next { s with returned := s.returned ++ [0#32] } ∧
    exec (.rdR8R15 idx) s = .next { s with returned := s.returned ++ [0#32] })

/-- 42_register_access.md R127, R129, R131 and R133: writes to RESULT, COUNT, STATUS and every reserved index change
nothing at all: S is not seeded, no sticky flag is cleared, ILLEGAL is not set. -/
def Obligations.ReadOnlyAndReservedWritesAreIgnored : Prop :=
  (∀ v : Word, decodeTransaction ⟨0b10011#5, v⟩ = .wrResult v ∧ decodeTransaction ⟨0b10100#5, v⟩ = .wrCount v ∧
    decodeTransaction ⟨0b10101#5, v⟩ = .wrStatus v) ∧
  (∀ (idx : WordIndex) (v : Word), 6 ≤ idx.toNat →
    decodeTransaction ⟨1#1 ++ idx, v⟩ = .wrR6R7 idx v ∨ decodeTransaction ⟨1#1 ++ idx, v⟩ = .wrR8R15 idx v) ∧
  (∀ (s : State) (idx : WordIndex) (v : Word),
    exec (.wrResult v) s = .next s ∧ exec (.wrCount v) s = .next s ∧ exec (.wrStatus v) s = .next s ∧
    exec (.wrR6R7 idx v) s = .next s ∧ exec (.wrR8R15 idx v) s = .next s)

/-- 10_state.md R24, 42_register_access.md R122 and R123: DATA is written by its own write and by reset and by nothing else;
it reads back as the last value written, and ABSORBD reads it. -/
def Obligations.DataIsWrittenOnlyByItsWriteAndReset : Prop :=
  (∀ v : Word, decodeTransaction ⟨0b10001#5, v⟩ = .wrData v ∧ decodeTransaction ⟨0b00001#5, v⟩ = .rdData) ∧
  (∀ (s : State) (v : Word), exec (.wrData v) s = .next { s with block := { s.block with DATA := v } } ∧
    exec .rdData s = .next { s with returned := s.returned ++ [s.block.DATA] }) ∧
  (∀ s t : State, step s = .next t →
    (s.resets = true → t.block.DATA = 0#32) ∧
    (∀ v : Word, fetch s = .instr (.wrData v) → t.block.DATA = v) ∧
    (s.resets = false → (∀ v : Word, fetch s ≠ .instr (.wrData v)) → t.block.DATA = s.block.DATA)) ∧
  (∀ (s : State) (n1 : BitVec 2), ∃ t : State, exec (.absorbd n1) s = .next t ∧ t.block.DATA = s.block.DATA ∧
    t.block.S = crcRaw s.block.S ((wordBytes s.block.DATA).take (n1.toNat + 1)))

/-- 10_state.md R25, 42_register_access.md R124 and R125: EXPECT is written by its own write and by reset and by nothing
else; its write clears MATCH and CHECKED, even where it writes the value already held; CHECK reads it. -/
def Obligations.ExpectIsWrittenOnlyByItsWriteAndReset : Prop :=
  (∀ v : Word, decodeTransaction ⟨0b10010#5, v⟩ = .wrExpect v ∧ decodeTransaction ⟨0b00010#5, v⟩ = .rdExpect) ∧
  (∀ (s : State) (v : Word),
    exec (.wrExpect v) s = .next { s with block := { s.block with EXPECT := v, MATCH := false, CHECKED := false } } ∧
    exec .rdExpect s = .next { s with returned := s.returned ++ [s.block.EXPECT] }) ∧
  (∀ s t : State, step s = .next t →
    (s.resets = true → t.block.EXPECT = 0#32) ∧
    (∀ v : Word, fetch s = .instr (.wrExpect v) → t.block.EXPECT = v) ∧
    (s.resets = false → (∀ v : Word, fetch s ≠ .instr (.wrExpect v)) → t.block.EXPECT = s.block.EXPECT)) ∧
  (∀ s : State, ∃ t : State, exec .check s = .next t ∧
    t.block.MATCH = decide (s.block.S ^^^ 0xFFFFFFFF#32 = s.block.EXPECT))

/-- 42_register_access.md R126: RESULT reads as S XOR 0xFFFFFFFF and reading changes nothing; it is 0 after reset and after
INIT, and at any point mid-stream the checksum of the bytes absorbed so far. -/
def Obligations.ResultReadsTheChecksumSoFar : Prop :=
  (∀ v : Word, decodeTransaction ⟨0b00011#5, v⟩ = .rdResult) ∧
  (∀ s : State, exec .rdResult s = .next { s with returned := s.returned ++ [s.block.S ^^^ 0xFFFFFFFF#32] }) ∧
  exec .rdResult State.reset = .next { State.reset with returned := [0#32] } ∧
  (∀ s : State, ∃ t : State, exec .init s = .next t ∧ exec .rdResult t = .next { t with returned := s.returned ++ [0#32] }) ∧
  (∀ (s : State) (m : List Byte), s.block.tracks m →
    exec .rdResult s = .next { s with returned := s.returned ++ [crc32 m] })

/-- 42_register_access.md R128: COUNT reads as the byte count modulo 2^32, and WRAP tells whether it has wrapped. -/
def Obligations.CountReadsTheByteCountModulo : Prop :=
  (∀ v : Word, decodeTransaction ⟨0b00100#5, v⟩ = .rdCount) ∧
  (∀ s : State, exec .rdCount s = .next { s with returned := s.returned ++ [s.block.COUNT] }) ∧
  (∀ (s : State) (m : List Byte), s.block.tracks m →
    ∃ c : Word, exec .rdCount s = .next { s with returned := s.returned ++ [c] } ∧
      c.toNat + 2 ^ 32 * (m.length / 2 ^ 32) = m.length ∧ (s.block.WRAP = true ↔ 1 ≤ m.length / 2 ^ 32))

/-- 42_register_access.md R130 and 10_state.md R31: STATUS reads as {28'b0, WRAP, ILLEGAL, CHECKED, MATCH} and reading
clears nothing; bits 31:4 read 0; where the invariant holds the values 0x1, 0x5, 0x9 and 0xD never occur. -/
def Obligations.StatusReadsTheFlags : Prop :=
  (∀ v : Word, decodeTransaction ⟨0b00101#5, v⟩ = .rdStatus) ∧
  (∀ s : State, ∃ r : Word, exec .rdStatus s = .next { s with returned := s.returned ++ [r] } ∧
    r.getLsbD 0 = s.block.MATCH ∧ r.getLsbD 1 = s.block.CHECKED ∧ r.getLsbD 2 = s.block.ILLEGAL ∧
    r.getLsbD 3 = s.block.WRAP ∧ (∀ j : Nat, 4 ≤ j → r.getLsbD j = false) ∧
    (s.inv → r ≠ 0x1#32 ∧ r ≠ 0x5#32 ∧ r ≠ 0x9#32 ∧ r ≠ 0xD#32))

/-- 20_memory.md section 3 (R50): reads have no side effects on the block and repeat their value; repeating a write of DATA or
EXPECT changes nothing more; two ABSORB8 writes absorb two bytes, and two ABSORBD writes the same bytes twice; writes to the
read-only and reserved indices have no effect. -/
def Obligations.ReadsAndRepeatedWritesAreIdempotent : Prop :=
  (∀ (i : Instr) (s t u : State), i.isRead = true → exec i s = .next t → exec i t = .next u →
    t.block = s.block ∧ ∃ v : Word, t.returned = s.returned ++ [v] ∧ u.returned = s.returned ++ [v, v]) ∧
  (∀ (s : State) (v : Word), (∃ t : State, exec (.wrData v) s = .next t ∧ exec (.wrData v) t = .next t) ∧
    (∃ t : State, exec (.wrExpect v) s = .next t ∧ exec (.wrExpect v) t = .next t ∧
      t.block.MATCH = false ∧ t.block.CHECKED = false)) ∧
  (∀ (s : State) (x : Byte), ∃ t u : State, exec (.wrCmd (0x02000000#32 ||| x.setWidth 32)) s = .next t ∧
    exec (.wrCmd (0x02000000#32 ||| x.setWidth 32)) t = .next u ∧
    u.block.S = crcRaw s.block.S [x, x] ∧ u.block.COUNT = s.block.COUNT + 2#32) ∧
  (∀ (s : State) (n1 : BitVec 2),
    let m : List Byte := (wordBytes s.block.DATA).take (n1.toNat + 1)
    ∃ t u : State, exec (.wrCmd (0x03000000#32 ||| n1.setWidth 32)) s = .next t ∧
      exec (.wrCmd (0x03000000#32 ||| n1.setWidth 32)) t = .next u ∧
      u.block.S = crcRaw s.block.S (m ++ m) ∧ u.block.COUNT = s.block.COUNT + BitVec.ofNat 32 (2 * (n1.toNat + 1))) ∧
  (∀ (s : State) (t : Transaction), t.we = true → 3 ≤ t.idx.toNat → exec (decodeTransaction t) s = .next s)

/-! ### Who writes S, COUNT and the flags: whole-machine rules over every step -/

/-- 10_state.md sections 2 and 3 (R21, R23): S and COUNT change by INIT, by Absorb and by reset, and by no other step. -/
def Obligations.ChecksumAndCountChangeOnlyByInitAbsorbAndReset : Prop :=
  ∀ s t : State, step s = .next t →
    (s.resets = true → t.block.S = 0xFFFFFFFF#32 ∧ t.block.COUNT = 0#32) ∧
    (s.command? = some .init → t.block.S = 0xFFFFFFFF#32 ∧ t.block.COUNT = 0#32) ∧
    (∀ x : Byte, s.command? = some (.absorb8 x) →
      t.block.S = byteStep s.block.S x ∧ t.block.COUNT = s.block.COUNT + 1#32) ∧
    (∀ n1 : BitVec 2, s.command? = some (.absorbd n1) →
      t.block.S = crcRaw s.block.S ((wordBytes s.block.DATA).take (n1.toNat + 1)) ∧
      t.block.COUNT = s.block.COUNT + BitVec.ofNat 32 (n1.toNat + 1)) ∧
    (s.resets = false → (∀ c : Command, s.command? = some c → c ≠ .init ∧ c.absorbs = false) →
      t.block.S = s.block.S ∧ t.block.COUNT = s.block.COUNT)

/-- 10_state.md R27 and R28: CHECK writes MATCH and sets CHECKED; each Absorb, a write of EXPECT, INIT and reset clear both;
no other step changes either. -/
def Obligations.MatchAndCheckedChangeOnlyWhereTheRulesSay : Prop :=
  ∀ s t : State, step s = .next t →
    (s.command? = some .check →
      t.block.MATCH = decide (s.block.S ^^^ 0xFFFFFFFF#32 = s.block.EXPECT) ∧ t.block.CHECKED = true) ∧
    ((s.resets = true ∨ s.command? = some .init ∨ (∃ c : Command, s.command? = some c ∧ c.absorbs = true) ∨
      ∃ v : Word, fetch s = .instr (.wrExpect v)) → t.block.MATCH = false ∧ t.block.CHECKED = false) ∧
    (s.resets = false → (∀ c : Command, s.command? = some c → c = .nop ∨ c = .illegal) →
      (∀ v : Word, fetch s ≠ .instr (.wrExpect v)) →
      t.block.MATCH = s.block.MATCH ∧ t.block.CHECKED = s.block.CHECKED)

/-- 10_state.md R29: ILLEGAL is set by an illegal command word; only INIT and reset clear it. -/
def Obligations.IllegalIsStickyUntilInitOrReset : Prop :=
  ∀ s t : State, step s = .next t →
    (s.command? = some .illegal → t.block.ILLEGAL = true) ∧
    (s.command? = some .init ∨ s.resets = true → t.block.ILLEGAL = false) ∧
    (s.command? ≠ some .illegal → s.command? ≠ some .init → s.resets = false → t.block.ILLEGAL = s.block.ILLEGAL)

/-- 10_state.md R30: WRAP is set by an Absorb that finds COUNT at 0xFFFFFFFF, only INIT and reset clear it, nothing else
changes it, and neither it nor COUNT ever affects S. -/
def Obligations.WrapIsStickyAndNeverTouchesTheChecksum : Prop :=
  (∀ s t : State, step s = .next t →
    (∀ x : Byte, s.command? = some (.absorb8 x) →
      t.block.WRAP = (s.block.WRAP || decide (s.block.COUNT = 0xFFFFFFFF#32))) ∧
    (∀ n1 : BitVec 2, s.command? = some (.absorbd n1) →
      t.block.WRAP = (s.block.WRAP || decide (∃ k : Fin (n1.toNat + 1), s.block.COUNT + BitVec.ofNat 32 k.val = 0xFFFFFFFF#32))) ∧
    (s.command? = some .init ∨ s.resets = true → t.block.WRAP = false) ∧
    (s.resets = false → (∀ c : Command, s.command? = some c → c ≠ .init ∧ c.absorbs = false) →
      t.block.WRAP = s.block.WRAP)) ∧
  (∀ (i : Instr) (s : State) (c : Word) (w : Bool), ∃ t u : State, exec i s = .next t ∧
    exec i { s with block := { s.block with COUNT := c, WRAP := w } } = .next u ∧ u.block.S = t.block.S)

/-! ### The CRC function -/

/-- 40_crc_function.md R88: the source's vector, whose checksum it gives as 2882656334, and the standard check value. -/
def Obligations.PublishedVectorsGiveTheirChecksums : Prop :=
  crc32 ([0x52#8, 0x75#8, 0x53#8, 0x74#8, 0x54#8, 0x68#8, 0x69#8, 0x73#8, 0x20#8, 0x69#8, 0x73#8, 0x20#8] ++
    [0x77#8, 0x68#8, 0x65#8, 0x72#8, 0x65#8, 0x20#8, 0x79#8, 0x6F#8, 0x75#8, 0x72#8, 0x20#8] ++
    [0x73#8, 0x65#8, 0x63#8, 0x72#8, 0x65#8, 0x74#8, 0x20#8, 0x6D#8, 0x65#8, 0x73#8, 0x73#8, 0x61#8, 0x67#8, 0x65#8] ++
    [0x20#8, 0x77#8, 0x69#8, 0x6C#8, 0x6C#8, 0x20#8, 0x62#8, 0x65#8, 0x21#8]) = BitVec.ofNat 32 2882656334 ∧
  crc32 [0x31#8, 0x32#8, 0x33#8, 0x34#8, 0x35#8, 0x36#8, 0x37#8, 0x38#8, 0x39#8] = 0xCBF43926#32

/-- 40_crc_function.md section 2 (R83, which the spec derives): the table form equals the bit form everywhere. -/
def Obligations.TableFormEqualsByteStep : Prop := ∀ (s : Word) (x : Byte), tableStep s x = byteStep s x

/-- 40_crc_function.md section 2 (R84, which the spec derives): the most-significant-bit-first form, on the reversed
register, gives the reversed register after every byte, and so after every message. -/
def Obligations.MsbFirstFormIsTheSameChecksum : Prop :=
  (∀ (s : Word) (x : Byte), msbByteStep s.reverse x = (byteStep s x).reverse) ∧
  (∀ m : List Byte, (m.foldl msbByteStep 0xFFFFFFFF#32).reverse ^^^ 0xFFFFFFFF#32 = crc32 m)

/-- 40_crc_function.md section 4 (R89, which the spec derives): ByteStep is linear over XOR; messages of equal length that
differ in the bit pattern e differ in S by Raw(0, e). -/
def Obligations.ByteStepIsLinearOverXor : Prop :=
  (∀ (s1 s2 : Word) (x1 x2 : Byte), byteStep (s1 ^^^ s2) (x1 ^^^ x2) = byteStep s1 x1 ^^^ byteStep s2 x2) ∧
  byteStep 0#32 0#8 = 0#32 ∧
  (∀ (s : Word) (m e : List Byte), m.length = e.length →
    crcRaw s (List.zipWith (· ^^^ ·) m e) = crcRaw s m ^^^ crcRaw 0#32 e)

/-- 40_crc_function.md section 4 (R89's second consequence, which the spec derives): every change of one byte of a message,
so every single-bit error, changes the checksum. -/
def Obligations.EverySingleByteErrorChangesTheChecksum : Prop :=
  ∀ (a b : List Byte) (x y : Byte), x ≠ y → crc32 (a ++ x :: b) ≠ crc32 (a ++ y :: b)

/-- 40_crc_function.md section 4 (R90, which the spec derives): a message followed by its own checksum, least significant
byte first, leaves S at the residue 0xDEBB20E3, whatever the message. -/
def Obligations.ChecksumAppendedLeavesTheResidue : Prop :=
  ∀ m : List Byte,
    crcRaw crcInit (m ++ [(crc32 m).extractLsb' 0 8, (crc32 m).extractLsb' 8 8, (crc32 m).extractLsb' 16 8,
      (crc32 m).extractLsb' 24 8]) = 0xDEBB20E3#32

open Polynomial in
/-- 40_crc_function.md section 3 (R85's polynomial form, which the spec derives): with M the polynomial of the message bits,
the first bit the coefficient of x^(8L-1), each byte from b[0] to b[7], and I = x^31 + ... + 1, the remainder of
x^32 M + x^(8L) I by the generator G of R81 is the checksum before the final XOR, bit i the coefficient of x^(31-i). -/
def Obligations.ChecksumIsThePolynomialRemainder : Prop :=
  ∀ (m : List Byte) (i : Nat), i < 32 →
    let g : (ZMod 2)[X] := X ^ 32 + X ^ 26 + X ^ 23 + X ^ 22 + X ^ 16 + X ^ 12 + X ^ 11 + X ^ 10 + X ^ 8 + X ^ 7 + X ^ 5 +
      X ^ 4 + X ^ 2 + X + 1
    let message : (ZMod 2)[X] := ∑ k ∈ Finset.range (8 * m.length),
      if (m.getD (k / 8) 0#8).getLsbD (k % 8) then X ^ (8 * m.length - 1 - k) else 0
    let ones : (ZMod 2)[X] := ∑ k ∈ Finset.range 32, X ^ k
    ((X ^ 32 * message + X ^ (8 * m.length) * ones) %ₘ g).coeff (31 - i)
      = if (crc32 m ^^^ 0xFFFFFFFF#32).getLsbD i then 1 else 0

/-- 40_crc_function.md section 3 (R85, which the spec derives): S stands where INIT and then every byte absorbed since the
last INIT or reset, in order, leave it; COUNT is their number modulo 2^32, and WRAP says whether it has passed 2^32. Every
step keeps that, from every state that has it. -/
def Obligations.EveryStepTracksTheBytesAbsorbed : Prop :=
  ∀ (s t : State) (m : List Byte), s.block.tracks m → step s = .next t → t.block.tracks (s.absorbedAfterStep m)

/-- The same at reset: no byte has been absorbed (10_state.md R37). -/
def Obligations.ResetTracksNoBytes : Prop := State.reset.block.tracks []

/-! ### The contract on chunks -/

/-- 30_encoding.md section 6 (R73): `crc.bytes` absorbs exactly its bytes, in order, whatever their number. -/
def Obligations.PseudoBytesAbsorbExactlyTheirBytes : Prop :=
  ∀ (m : List Byte) (s : State), s.resetAsserted = false →
    ∃ t : State, Sys2Proof.core.run (crcBytes m).length (s.issue (crcBytes m)) = .next t ∧
      t.block.S = crcRaw s.block.S m ∧ t.block.COUNT = s.block.COUNT + BitVec.ofNat 32 m.length ∧
      t.block.WRAP = (s.block.WRAP || decide (2 ^ 32 ≤ s.block.COUNT.toNat + m.length)) ∧
      t.block.ILLEGAL = s.block.ILLEGAL ∧ t.block.EXPECT = s.block.EXPECT ∧ t.returned = s.returned ∧
      t.pending = s.pending ∧ t.resetAsserted = false

/-- 43_chunk_framing.md sections 2 and 4 (R144, R151, which the spec derives): the host runs the generator procedure for a
payload of at most 2^32 - 1 bytes, so that it absorbs at most 2^32 + 3, and refuses any other (93_implementation_defined.md U1).
From any state, and for any number of bytes, its transactions return Crc32(type ++ payload), and COUNT is 4 + L modulo 2^32 with
WRAP exactly where 4 + L reaches 2^32. -/
def Obligations.GeneratorReturnsTheChunkChecksum : Prop :=
  (∀ c : Chunk, c.payload.length ≤ 2 ^ 32 - 1 →
    generator c = some (generatorTransactions c) ∧ ([c.t0, c.t1, c.t2, c.t3] ++ c.payload).length ≤ 2 ^ 32 + 3) ∧
  (∀ c : Chunk, 2 ^ 32 - 1 < c.payload.length → generator c = none) ∧
  (∀ (c : Chunk) (s : State), s.resetAsserted = false →
    ∃ t : State,
      Sys2Proof.core.run (generatorTransactions c).length (s.issue (generatorTransactions c)) = .next t ∧
      t.returned = s.returned ++ [crc32 ([c.t0, c.t1, c.t2, c.t3] ++ c.payload)] ∧
      t.block.COUNT = BitVec.ofNat 32 (4 + c.payload.length) ∧
      t.block.WRAP = decide (2 ^ 32 ≤ 4 + c.payload.length) ∧
      t.block.ILLEGAL = false ∧ t.block.MATCH = false ∧ t.block.CHECKED = false ∧ t.block.EXPECT = s.block.EXPECT ∧
      t.pending = s.pending)

/-- 43_chunk_framing.md section 3 (R146, which the spec derives): from any state, the checker procedure's STATUS read
returns 0x3 where Crc32(type ++ payload) is the stored checksum and 0x2 where it is not, with 0x8 added where COUNT wrapped
(section 4, R151). The host runs it for a payload of at most 2^32 - 1 bytes and refuses any other (U1). -/
def Obligations.CheckerReportsWhetherTheChecksumMatches : Prop :=
  (∀ c : Chunk, c.payload.length ≤ 2 ^ 32 - 1 → checker c = some (checkerTransactions c)) ∧
  (∀ c : Chunk, 2 ^ 32 - 1 < c.payload.length → checker c = none) ∧
  (∀ (c : Chunk) (s : State), s.resetAsserted = false →
    ∃ t : State, Sys2Proof.core.run (checkerTransactions c).length (s.issue (checkerTransactions c)) = .next t ∧
      t.returned = s.returned ++ [
        (if crc32 ([c.t0, c.t1, c.t2, c.t3] ++ c.payload) = c.checksum then 0x3#32 else 0x2#32) +
        (if 2 ^ 32 ≤ 4 + c.payload.length then 0x8#32 else 0x0#32)] ∧
      t.pending = s.pending)

/-- 43_chunk_framing.md section 3 (R149, which the spec derives): a chunk whose checksum the generator procedure returned,
serialised, and read back at the head of any buffer, always checks, in any later state of any block. The host serialises no
chunk whose payload is beyond the limit (section 4, R151; U1). -/
def Obligations.GeneratedChunksAlwaysCheck : Prop :=
  (∀ (c : Chunk) (rest : List Byte) (s u : State), c.payload.length ≤ 2 ^ 32 - 1 →
    s.resetAsserted = false → u.resetAsserted = false →
    ∃ (g : List Transaction) (t : State) (sum : Word) (bytes : List Byte),
      generator c = some g ∧ Sys2Proof.core.run g.length (s.issue g) = .next t ∧ t.returned = s.returned ++ [sum] ∧
      { c with checksum := sum }.serialise = some bytes ∧ chunkAt (bytes ++ rest) = { c with checksum := sum } ∧
      ∃ (k : List Transaction) (v : State), checker (chunkAt (bytes ++ rest)) = some k ∧
        Sys2Proof.core.run k.length (u.issue k) = .next v ∧ v.block.MATCH = true ∧ v.block.CHECKED = true) ∧
  (∀ c : Chunk, 2 ^ 32 - 1 < c.payload.length → c.serialise = none)

/-- 43_chunk_framing.md R141 and R147: a serialised chunk is 12 + Length bytes; its fields are read back big-endian, each at
its offset, the checksum at 8 + Length, whatever follows the chunk in the buffer. -/
def Obligations.ChunkFieldsLieAtTheirOffsets : Prop :=
  ∀ (c : Chunk) (rest : List Byte), c.payload.length < 2 ^ 32 →
    c.bytes.length = 12 + c.payload.length ∧ chunkAt (c.bytes ++ rest) = c ∧
    (wordAt (c.bytes ++ rest) 0).toNat = c.payload.length ∧
    ((c.bytes ++ rest).drop 4).take 4 = [c.t0, c.t1, c.t2, c.t3] ∧
    ((c.bytes ++ rest).drop 8).take c.payload.length = c.payload ∧
    ((c.bytes ++ rest).drop (8 + c.payload.length)).take 4 =
      [c.checksum.extractLsb' 24 8, c.checksum.extractLsb' 16 8, c.checksum.extractLsb' 8 8, c.checksum.extractLsb' 0 8]

/-- 43_chunk_framing.md section 3 (R148): after the checker procedure, the host rejects the chunk exactly where it verifies
and the checksum does not match, for either value of the parameter and for the platform's own; the block itself goes on
either way. That the host reads MATCH alone, where program P6
compares STATUS with 0x3, is the model's choice (log entry 8). -/
def Obligations.OnlyAVerifyingHostRejectsAMismatch : Prop :=
  ∀ (verifyOnParse : Bool) (c : Chunk) (s : State), s.resetAsserted = false →
    ∃ (t : State) (status : Word), Sys2Proof.core.run (checkerTransactions c).length (s.issue (checkerTransactions c)) = .next t ∧
      t.returned = s.returned ++ [status] ∧ t.resetAsserted = false ∧
      (hostAccepts verifyOnParse status = false ↔
        verifyOnParse = true ∧ crc32 ([c.t0, c.t1, c.t2, c.t3] ++ c.payload) ≠ c.checksum) ∧
      (platformAccepts status = false ↔
        Config.hostVerifyOnParse = true ∧ crc32 ([c.t0, c.t1, c.t2, c.t3] ++ c.payload) ≠ c.checksum)
end

