-- ==== Sys2Proof/Laws/Chunk.lean ====
section
/-! SUPPORT. The payload limit of the host's procedures (43_chunk_framing.md R151; 93_implementation_defined.md U1): what each
answers on either side of it. -/

namespace Sys2Proof.Machine

theorem Chunk.fits_iff (c : Chunk) : c.fits = true ↔ c.payload.length ≤ 2 ^ 32 - 1 := by
  rw [Chunk.fits, decide_eq_true_iff, payloadLimit]

theorem Chunk.not_fits_iff (c : Chunk) : c.fits = false ↔ 2 ^ 32 - 1 < c.payload.length := by
  rw [← Bool.not_eq_true, Chunk.fits_iff, Nat.not_le]

/-- The checksum field plays no part in the limit. -/
@[simp] theorem Chunk.fits_checksum (c : Chunk) (w : Word) : { c with checksum := w }.fits = c.fits := rfl

@[simp] theorem generator_of_fits {c : Chunk} (h : c.fits = true) : generator c = some (generatorTransactions c) := if_pos h
@[simp] theorem checker_of_fits {c : Chunk} (h : c.fits = true) : checker c = some (checkerTransactions c) := if_pos h
@[simp] theorem serialise_of_fits {c : Chunk} (h : c.fits = true) : c.serialise = some c.bytes := if_pos h

@[simp] theorem generator_refuses {c : Chunk} (h : c.fits = false) : generator c = none := by rw [generator, h]; rfl
@[simp] theorem checker_refuses {c : Chunk} (h : c.fits = false) : checker c = none := by rw [checker, h]; rfl
@[simp] theorem serialise_refuses {c : Chunk} (h : c.fits = false) : c.serialise = none := by rw [Chunk.serialise, h]; rfl

end Sys2Proof.Machine
end

