-- ==== Sys2Proof/Laws/Crc.lean ====
section
/-! SUPPORT. The small lemmas of the CRC function (40_crc_function.md R82, R85). -/

namespace Sys2Proof.Machine

@[simp] theorem bitSteps_zero (t : Word) : bitSteps 0 t = t := rfl
@[simp] theorem bitSteps_succ (n : Nat) (t : Word) : bitSteps (n + 1) t = bitSteps n (bitStep t) := rfl
@[simp] theorem msbBitSteps_zero (u : Word) : msbBitSteps 0 u = u := rfl
@[simp] theorem msbBitSteps_succ (n : Nat) (u : Word) : msbBitSteps (n + 1) u = msbBitSteps n (msbBitStep u) := rfl
@[simp] theorem crcRaw_nil (s : Word) : crcRaw s [] = s := rfl
@[simp] theorem crcRaw_cons (s : Word) (x : Byte) (m : List Byte) : crcRaw s (x :: m) = crcRaw (byteStep s x) m := rfl

/-- R87. -/
@[simp] theorem crcRaw_append (s : Word) (a b : List Byte) : crcRaw s (a ++ b) = crcRaw (crcRaw s a) b :=
  List.foldl_append

/-- One round on the bits: bit 31 takes the bit that leaves, every other bit its left neighbour, and the reflected
polynomial is added where the bit that leaves is 1. -/
theorem getLsbD_bitStep (t : Word) (i : Nat) :
    (bitStep t).getLsbD i = (t.getLsbD (i + 1) ^^ (t.getLsbD 0 && crcPolyReflected.getLsbD i)) := by
  unfold bitStep
  cases h : t.getLsbD 0 <;> simp [Nat.add_comm]

end Sys2Proof.Machine
end

