-- ==== Sys2Proof/Laws/Decode.lean ====
section
/-! SUPPORT. The small lemmas of the transaction key (30_encoding.md R61). -/

namespace Sys2Proof

@[simp] theorem keyOf_we (we : Bool) (idx : WordIndex) (v : Word) : (Transaction.mk (keyOf we idx) v).we = we := by
  simp only [Transaction.we]; decide +revert

@[simp] theorem keyOf_idx (we : Bool) (idx : WordIndex) (v : Word) : (Transaction.mk (keyOf we idx) v).idx = idx := by
  simp only [Transaction.idx]; decide +revert

@[simp] theorem busWrite_we (idx : WordIndex) (v : Word) : (busWrite idx v).we = true := keyOf_we true idx v
@[simp] theorem busWrite_idx (idx : WordIndex) (v : Word) : (busWrite idx v).idx = idx := keyOf_idx true idx v
@[simp] theorem busWrite_wdata (idx : WordIndex) (v : Word) : (busWrite idx v).wdata = v := rfl
@[simp] theorem busRead_we (idx : WordIndex) : (busRead idx).we = false := keyOf_we false idx 0#32
@[simp] theorem busRead_idx (idx : WordIndex) : (busRead idx).idx = idx := keyOf_idx false idx 0#32

/-- A key is its two fields. -/
theorem keyOf_we_idx (t : Transaction) : keyOf t.we t.idx = t.key := by
  obtain ⟨k, v⟩ := t
  simp only [Transaction.we, Transaction.idx]; decide +revert

@[simp] theorem decodeTransaction_busWrite (idx : WordIndex) (v : Word) :
    decodeTransaction (busWrite idx v) = writeRow idx v := by simp [decodeTransaction]
@[simp] theorem decodeTransaction_busRead (idx : WordIndex) :
    decodeTransaction (busRead idx) = readRow idx := by simp [decodeTransaction]

end Sys2Proof
end

