-- ==== Sys2Proof/Laws/State.lean ====
section
/-! SUPPORT. One lemma per field per update, each true by rfl: with them no proof unfolds a record update.
The updates are the shared operations of Flags.lean, Ops.lean and Fetch.lean. -/

namespace Sys2Proof.Machine

/-! ### The block -/

@[simp] theorem Block.clearCheck_S (b : Block) : (b.clearCheck).S = b.S := rfl
@[simp] theorem Block.clearCheck_COUNT (b : Block) : (b.clearCheck).COUNT = b.COUNT := rfl
@[simp] theorem Block.clearCheck_DATA (b : Block) : (b.clearCheck).DATA = b.DATA := rfl
@[simp] theorem Block.clearCheck_EXPECT (b : Block) : (b.clearCheck).EXPECT = b.EXPECT := rfl
@[simp] theorem Block.clearCheck_MATCH (b : Block) : (b.clearCheck).MATCH = false := rfl
@[simp] theorem Block.clearCheck_CHECKED (b : Block) : (b.clearCheck).CHECKED = false := rfl
@[simp] theorem Block.clearCheck_ILLEGAL (b : Block) : (b.clearCheck).ILLEGAL = b.ILLEGAL := rfl
@[simp] theorem Block.clearCheck_WRAP (b : Block) : (b.clearCheck).WRAP = b.WRAP := rfl

@[simp] theorem Block.recordCheck_S (b : Block) : (b.recordCheck).S = b.S := rfl
@[simp] theorem Block.recordCheck_COUNT (b : Block) : (b.recordCheck).COUNT = b.COUNT := rfl
@[simp] theorem Block.recordCheck_DATA (b : Block) : (b.recordCheck).DATA = b.DATA := rfl
@[simp] theorem Block.recordCheck_EXPECT (b : Block) : (b.recordCheck).EXPECT = b.EXPECT := rfl
@[simp] theorem Block.recordCheck_MATCH (b : Block) : (b.recordCheck).MATCH = (b.result == b.EXPECT) := rfl
@[simp] theorem Block.recordCheck_CHECKED (b : Block) : (b.recordCheck).CHECKED = true := rfl
@[simp] theorem Block.recordCheck_ILLEGAL (b : Block) : (b.recordCheck).ILLEGAL = b.ILLEGAL := rfl
@[simp] theorem Block.recordCheck_WRAP (b : Block) : (b.recordCheck).WRAP = b.WRAP := rfl

@[simp] theorem Block.setIllegal_S (b : Block) : (b.setIllegal).S = b.S := rfl
@[simp] theorem Block.setIllegal_COUNT (b : Block) : (b.setIllegal).COUNT = b.COUNT := rfl
@[simp] theorem Block.setIllegal_DATA (b : Block) : (b.setIllegal).DATA = b.DATA := rfl
@[simp] theorem Block.setIllegal_EXPECT (b : Block) : (b.setIllegal).EXPECT = b.EXPECT := rfl
@[simp] theorem Block.setIllegal_MATCH (b : Block) : (b.setIllegal).MATCH = b.MATCH := rfl
@[simp] theorem Block.setIllegal_CHECKED (b : Block) : (b.setIllegal).CHECKED = b.CHECKED := rfl
@[simp] theorem Block.setIllegal_ILLEGAL (b : Block) : (b.setIllegal).ILLEGAL = true := rfl
@[simp] theorem Block.setIllegal_WRAP (b : Block) : (b.setIllegal).WRAP = b.WRAP := rfl

@[simp] theorem Block.noteWrap_S (b : Block) : (b.noteWrap).S = b.S := rfl
@[simp] theorem Block.noteWrap_COUNT (b : Block) : (b.noteWrap).COUNT = b.COUNT := rfl
@[simp] theorem Block.noteWrap_DATA (b : Block) : (b.noteWrap).DATA = b.DATA := rfl
@[simp] theorem Block.noteWrap_EXPECT (b : Block) : (b.noteWrap).EXPECT = b.EXPECT := rfl
@[simp] theorem Block.noteWrap_MATCH (b : Block) : (b.noteWrap).MATCH = b.MATCH := rfl
@[simp] theorem Block.noteWrap_CHECKED (b : Block) : (b.noteWrap).CHECKED = b.CHECKED := rfl
@[simp] theorem Block.noteWrap_ILLEGAL (b : Block) : (b.noteWrap).ILLEGAL = b.ILLEGAL := rfl
@[simp] theorem Block.noteWrap_WRAP (b : Block) : (b.noteWrap).WRAP = (b.WRAP || b.COUNT == 0xFFFFFFFF#32) := rfl

@[simp] theorem Block.clearFlags_S (b : Block) : (b.clearFlags).S = b.S := rfl
@[simp] theorem Block.clearFlags_COUNT (b : Block) : (b.clearFlags).COUNT = b.COUNT := rfl
@[simp] theorem Block.clearFlags_DATA (b : Block) : (b.clearFlags).DATA = b.DATA := rfl
@[simp] theorem Block.clearFlags_EXPECT (b : Block) : (b.clearFlags).EXPECT = b.EXPECT := rfl
@[simp] theorem Block.clearFlags_MATCH (b : Block) : (b.clearFlags).MATCH = false := rfl
@[simp] theorem Block.clearFlags_CHECKED (b : Block) : (b.clearFlags).CHECKED = false := rfl
@[simp] theorem Block.clearFlags_ILLEGAL (b : Block) : (b.clearFlags).ILLEGAL = false := rfl
@[simp] theorem Block.clearFlags_WRAP (b : Block) : (b.clearFlags).WRAP = false := rfl

@[simp] theorem Block.setData_S (b : Block) (v : Word) : (b.setData v).S = b.S := rfl
@[simp] theorem Block.setData_COUNT (b : Block) (v : Word) : (b.setData v).COUNT = b.COUNT := rfl
@[simp] theorem Block.setData_DATA (b : Block) (v : Word) : (b.setData v).DATA = v := rfl
@[simp] theorem Block.setData_EXPECT (b : Block) (v : Word) : (b.setData v).EXPECT = b.EXPECT := rfl
@[simp] theorem Block.setData_MATCH (b : Block) (v : Word) : (b.setData v).MATCH = b.MATCH := rfl
@[simp] theorem Block.setData_CHECKED (b : Block) (v : Word) : (b.setData v).CHECKED = b.CHECKED := rfl
@[simp] theorem Block.setData_ILLEGAL (b : Block) (v : Word) : (b.setData v).ILLEGAL = b.ILLEGAL := rfl
@[simp] theorem Block.setData_WRAP (b : Block) (v : Word) : (b.setData v).WRAP = b.WRAP := rfl

@[simp] theorem Block.setExpect_S (b : Block) (v : Word) : (b.setExpect v).S = b.S := rfl
@[simp] theorem Block.setExpect_COUNT (b : Block) (v : Word) : (b.setExpect v).COUNT = b.COUNT := rfl
@[simp] theorem Block.setExpect_DATA (b : Block) (v : Word) : (b.setExpect v).DATA = b.DATA := rfl
@[simp] theorem Block.setExpect_EXPECT (b : Block) (v : Word) : (b.setExpect v).EXPECT = v := rfl
@[simp] theorem Block.setExpect_MATCH (b : Block) (v : Word) : (b.setExpect v).MATCH = false := rfl
@[simp] theorem Block.setExpect_CHECKED (b : Block) (v : Word) : (b.setExpect v).CHECKED = false := rfl
@[simp] theorem Block.setExpect_ILLEGAL (b : Block) (v : Word) : (b.setExpect v).ILLEGAL = b.ILLEGAL := rfl
@[simp] theorem Block.setExpect_WRAP (b : Block) (v : Word) : (b.setExpect v).WRAP = b.WRAP := rfl

@[simp] theorem Block.startChecksum_S (b : Block) : (b.startChecksum).S = crcInit := rfl
@[simp] theorem Block.startChecksum_COUNT (b : Block) : (b.startChecksum).COUNT = 0#32 := rfl
@[simp] theorem Block.startChecksum_DATA (b : Block) : (b.startChecksum).DATA = b.DATA := rfl
@[simp] theorem Block.startChecksum_EXPECT (b : Block) : (b.startChecksum).EXPECT = b.EXPECT := rfl
@[simp] theorem Block.startChecksum_MATCH (b : Block) : (b.startChecksum).MATCH = false := rfl
@[simp] theorem Block.startChecksum_CHECKED (b : Block) : (b.startChecksum).CHECKED = false := rfl
@[simp] theorem Block.startChecksum_ILLEGAL (b : Block) : (b.startChecksum).ILLEGAL = false := rfl
@[simp] theorem Block.startChecksum_WRAP (b : Block) : (b.startChecksum).WRAP = false := rfl

@[simp] theorem Block.compare_S (b : Block) : (b.compare).S = b.S := rfl
@[simp] theorem Block.compare_COUNT (b : Block) : (b.compare).COUNT = b.COUNT := rfl
@[simp] theorem Block.compare_DATA (b : Block) : (b.compare).DATA = b.DATA := rfl
@[simp] theorem Block.compare_EXPECT (b : Block) : (b.compare).EXPECT = b.EXPECT := rfl
@[simp] theorem Block.compare_MATCH (b : Block) : (b.compare).MATCH = (b.result == b.EXPECT) := rfl
@[simp] theorem Block.compare_CHECKED (b : Block) : (b.compare).CHECKED = true := rfl
@[simp] theorem Block.compare_ILLEGAL (b : Block) : (b.compare).ILLEGAL = b.ILLEGAL := rfl
@[simp] theorem Block.compare_WRAP (b : Block) : (b.compare).WRAP = b.WRAP := rfl

@[simp] theorem Block.flagIllegal_S (b : Block) : (b.flagIllegal).S = b.S := rfl
@[simp] theorem Block.flagIllegal_COUNT (b : Block) : (b.flagIllegal).COUNT = b.COUNT := rfl
@[simp] theorem Block.flagIllegal_DATA (b : Block) : (b.flagIllegal).DATA = b.DATA := rfl
@[simp] theorem Block.flagIllegal_EXPECT (b : Block) : (b.flagIllegal).EXPECT = b.EXPECT := rfl
@[simp] theorem Block.flagIllegal_MATCH (b : Block) : (b.flagIllegal).MATCH = b.MATCH := rfl
@[simp] theorem Block.flagIllegal_CHECKED (b : Block) : (b.flagIllegal).CHECKED = b.CHECKED := rfl
@[simp] theorem Block.flagIllegal_ILLEGAL (b : Block) : (b.flagIllegal).ILLEGAL = true := rfl
@[simp] theorem Block.flagIllegal_WRAP (b : Block) : (b.flagIllegal).WRAP = b.WRAP := rfl

@[simp] theorem Block.absorb_S (b : Block) (x : Byte) : (b.absorb x).S = byteStep b.S x := rfl
@[simp] theorem Block.absorb_COUNT (b : Block) (x : Byte) : (b.absorb x).COUNT = b.COUNT + 1#32 := rfl
@[simp] theorem Block.absorb_DATA (b : Block) (x : Byte) : (b.absorb x).DATA = b.DATA := rfl
@[simp] theorem Block.absorb_EXPECT (b : Block) (x : Byte) : (b.absorb x).EXPECT = b.EXPECT := rfl
@[simp] theorem Block.absorb_MATCH (b : Block) (x : Byte) : (b.absorb x).MATCH = false := rfl
@[simp] theorem Block.absorb_CHECKED (b : Block) (x : Byte) : (b.absorb x).CHECKED = false := rfl
@[simp] theorem Block.absorb_ILLEGAL (b : Block) (x : Byte) : (b.absorb x).ILLEGAL = b.ILLEGAL := rfl
@[simp] theorem Block.absorb_WRAP (b : Block) (x : Byte) : (b.absorb x).WRAP = (b.WRAP || b.COUNT == 0xFFFFFFFF#32) := rfl

/-! ### The machine -/

@[simp] theorem State.onBlock_block (s : State) (f : Block → Block) : (s.onBlock f).block = f s.block := rfl
@[simp] theorem State.onBlock_resetAsserted (s : State) (f : Block → Block) : (s.onBlock f).resetAsserted = s.resetAsserted := rfl
@[simp] theorem State.onBlock_pending (s : State) (f : Block → Block) : (s.onBlock f).pending = s.pending := rfl
@[simp] theorem State.onBlock_returned (s : State) (f : Block → Block) : (s.onBlock f).returned = s.returned := rfl

@[simp] theorem State.returnWord_block (s : State) (v : Word) : (s.returnWord v).block = s.block := rfl
@[simp] theorem State.returnWord_resetAsserted (s : State) (v : Word) : (s.returnWord v).resetAsserted = s.resetAsserted := rfl
@[simp] theorem State.returnWord_pending (s : State) (v : Word) : (s.returnWord v).pending = s.pending := rfl
@[simp] theorem State.returnWord_returned (s : State) (v : Word) : (s.returnWord v).returned = s.returned ++ [v] := rfl

@[simp] theorem State.busRead_block (s : State) (idx : WordIndex) : (s.busRead idx).block = s.block := rfl
@[simp] theorem State.busRead_resetAsserted (s : State) (idx : WordIndex) : (s.busRead idx).resetAsserted = s.resetAsserted := rfl
@[simp] theorem State.busRead_pending (s : State) (idx : WordIndex) : (s.busRead idx).pending = s.pending := rfl
@[simp] theorem State.busRead_returned (s : State) (idx : WordIndex) : (s.busRead idx).returned = s.returned ++ [s.block.readIndex idx] := rfl

@[simp] theorem State.busWrite_block (s : State) (idx : WordIndex) (v : Word) : (s.busWrite idx v).block = s.block.writeIndex idx v := rfl
@[simp] theorem State.busWrite_resetAsserted (s : State) (idx : WordIndex) (v : Word) : (s.busWrite idx v).resetAsserted = s.resetAsserted := rfl
@[simp] theorem State.busWrite_pending (s : State) (idx : WordIndex) (v : Word) : (s.busWrite idx v).pending = s.pending := rfl
@[simp] theorem State.busWrite_returned (s : State) (idx : WordIndex) (v : Word) : (s.busWrite idx v).returned = s.returned := rfl

@[simp] theorem State.popEvent_block (s : State) : (s.popEvent).block = s.block := rfl
@[simp] theorem State.popEvent_resetAsserted (s : State) : (s.popEvent).resetAsserted = s.resetAsserted := rfl
@[simp] theorem State.popEvent_pending (s : State) : (s.popEvent).pending = s.pending.tail := rfl
@[simp] theorem State.popEvent_returned (s : State) : (s.popEvent).returned = s.returned := rfl

@[simp] theorem State.issueFirst_block (s : State) (t : Transaction) : (s.issueFirst t).block = s.block := rfl
@[simp] theorem State.issueFirst_resetAsserted (s : State) (t : Transaction) : (s.issueFirst t).resetAsserted = false := rfl
@[simp] theorem State.issueFirst_pending (s : State) (t : Transaction) : (s.issueFirst t).pending = .transaction t :: s.pending := rfl
@[simp] theorem State.issueFirst_returned (s : State) (t : Transaction) : (s.issueFirst t).returned = s.returned := rfl

@[simp] theorem State.issue_block (s : State) (ts : List Transaction) : (s.issue ts).block = s.block := rfl
@[simp] theorem State.issue_resetAsserted (s : State) (ts : List Transaction) : (s.issue ts).resetAsserted = s.resetAsserted := rfl
@[simp] theorem State.issue_pending (s : State) (ts : List Transaction) : (s.issue ts).pending = ts.map .transaction ++ s.pending := rfl
@[simp] theorem State.issue_returned (s : State) (ts : List Transaction) : (s.issue ts).returned = s.returned := rfl

@[simp] theorem State.driveReset_true (s : State) :
    s.driveReset true = { s with block := Block.reset, resetAsserted := true } := rfl
@[simp] theorem State.driveReset_pending (s : State) (a : Bool) : (s.driveReset a).pending = s.pending := by
  unfold State.driveReset; split <;> [rfl; split <;> rfl]
@[simp] theorem State.driveReset_returned (s : State) (a : Bool) : (s.driveReset a).returned = s.returned := by
  unfold State.driveReset; split <;> [rfl; split <;> rfl]
@[simp] theorem State.driveReset_resetAsserted (s : State) (a : Bool) : (s.driveReset a).resetAsserted = a := by
  cases a <;> cases h : s.resetAsserted <;> simp [State.driveReset, h]

/-- Driving the reset input high, or low after it was high, leaves the block in its reset state. -/
theorem State.driveReset_block_reset {s : State} {a : Bool} (h : (a || s.resetAsserted) = true) :
    (s.driveReset a).block = Block.reset := by
  cases a <;> simp_all [State.driveReset]

/-- Driving it low when it was low leaves the block as it is. -/
theorem State.driveReset_block_same {s : State} {a : Bool} (h : (a || s.resetAsserted) = false) :
    (s.driveReset a).block = s.block := by
  cases a <;> simp_all [State.driveReset]

end Sys2Proof.Machine
end

