-- ==== Sys2Proof/Laws/Ops.lean ====
section
/-! SUPPORT. For each shared operation, one lemma that says everything it does. The provers cite these instead of
unfolding the operations. -/

namespace Sys2Proof.Machine

@[simp] theorem absorbdBytes_length (d : Word) (n1 : BitVec 2) : (absorbdBytes d n1).length = n1.toNat + 1 := by
  have := n1.isLt
  simp only [absorbdBytes, byteCount, wordBytes, List.length_take, List.length_cons, List.length_nil]
  omega

@[simp] theorem Block.absorbAll_nil (b : Block) : b.absorbAll [] = b := rfl
@[simp] theorem Block.absorbAll_cons (b : Block) (x : Byte) (m : List Byte) :
    b.absorbAll (x :: m) = (b.absorb x).absorbAll m := rfl
@[simp] theorem Block.absorbAll_append (b : Block) (l m : List Byte) :
    b.absorbAll (l ++ m) = (b.absorbAll l).absorbAll m := List.foldl_append

/-- R100, one byte: every field of the block after it. -/
theorem Block.absorb_eq (b : Block) (x : Byte) :
    b.absorb x = { b with S := byteStep b.S x, COUNT := b.COUNT + 1#32, MATCH := false, CHECKED := false,
                          WRAP := b.WRAP || b.COUNT == 0xFFFFFFFF#32 } := rfl

/-- COUNT at its largest value is COUNT about to reach 2^32. -/
theorem count_is_last (c : Word) : (c == 0xFFFFFFFF#32) = decide (2 ^ 32 ≤ c.toNat + 1) := by
  have := c.isLt
  rw [Bool.eq_iff_iff, beq_iff_eq, decide_eq_true_iff, ← BitVec.toNat_inj]
  simp only [BitVec.toNat_ofNat]
  omega

/-- R100, any number of bytes: S runs over them, COUNT counts them modulo 2^32, WRAP is set where COUNT passes its largest
value, MATCH and CHECKED are cleared if there was a byte at all, and nothing else changes. -/
theorem Block.absorbAll_eq (b : Block) (m : List Byte) :
    b.absorbAll m = { b with
      S := crcRaw b.S m, COUNT := b.COUNT + BitVec.ofNat 32 m.length,
      MATCH := b.MATCH && m.isEmpty, CHECKED := b.CHECKED && m.isEmpty,
      WRAP := b.WRAP || decide (2 ^ 32 ≤ b.COUNT.toNat + m.length) } := by
  induction m generalizing b with
  | nil =>
    have := b.COUNT.isLt
    have h : decide (2 ^ 32 ≤ b.COUNT.toNat + 0) = false := decide_eq_false (by omega)
    simp only [absorbAll_nil, crcRaw_nil, List.length_nil, List.isEmpty_nil, Bool.and_true, h, Bool.or_false,
      BitVec.add_zero]
  | cons x m ih =>
    have hc := b.COUNT.isLt
    have hw : (decide (2 ^ 32 ≤ b.COUNT.toNat + 1) || decide (2 ^ 32 ≤ (b.COUNT + 1#32).toNat + m.length))
        = decide (2 ^ 32 ≤ b.COUNT.toNat + (m.length + 1)) := by
      rw [← Bool.decide_or]
      congr 1
      simp only [BitVec.toNat_add, BitVec.toNat_ofNat, eq_iff_iff]
      omega
    have hn : b.COUNT + 1#32 + BitVec.ofNat 32 m.length = b.COUNT + BitVec.ofNat 32 (m.length + 1) := by
      rw [BitVec.add_assoc, BitVec.ofNat_add, BitVec.add_comm 1#32]
    rw [Block.absorbAll_cons, ih, Block.absorb_eq]
    simp only [crcRaw_cons, List.length_cons, List.isEmpty_cons, Bool.and_false, Bool.false_and, count_is_last,
      Bool.or_assoc, hw, hn]

/-- R104: DATA itself is not changed. -/
theorem Block.absorbData_eq (b : Block) (n1 : BitVec 2) :
    b.absorbData n1 = { b with
      S := crcRaw b.S (absorbdBytes b.DATA n1), COUNT := b.COUNT + BitVec.ofNat 32 (n1.toNat + 1),
      MATCH := false, CHECKED := false,
      WRAP := b.WRAP || decide (2 ^ 32 ≤ b.COUNT.toNat + (n1.toNat + 1)) } := by
  have h : (absorbdBytes b.DATA n1).isEmpty = false := by
    rw [List.isEmpty_eq_false_iff, ← List.length_pos_iff, absorbdBytes_length]; omega
  rw [Block.absorbData, Block.absorbAll_eq, h, absorbdBytes_length, Bool.and_false, Bool.and_false]

/-! ### The window -/

@[simp] theorem Block.readIndex_cmd (b : Block) : b.readIndex 0#4 = 0#32 := rfl
@[simp] theorem Block.readIndex_data (b : Block) : b.readIndex 1#4 = b.DATA := rfl
@[simp] theorem Block.readIndex_expect (b : Block) : b.readIndex 2#4 = b.EXPECT := rfl
@[simp] theorem Block.readIndex_result (b : Block) : b.readIndex 3#4 = b.result := rfl
@[simp] theorem Block.readIndex_count (b : Block) : b.readIndex 4#4 = b.COUNT := rfl
@[simp] theorem Block.readIndex_status (b : Block) : b.readIndex 5#4 = b.status := rfl

@[simp] theorem Block.writeIndex_cmd (b : Block) (v : Word) : b.writeIndex 0#4 v = b.perform (decodeCommand v) := rfl
@[simp] theorem Block.writeIndex_data (b : Block) (v : Word) : b.writeIndex 1#4 v = b.setData v := rfl
@[simp] theorem Block.writeIndex_expect (b : Block) (v : Word) : b.writeIndex 2#4 v = b.setExpect v := rfl
@[simp] theorem Block.writeIndex_result (b : Block) (v : Word) : b.writeIndex 3#4 v = b := rfl
@[simp] theorem Block.writeIndex_count (b : Block) (v : Word) : b.writeIndex 4#4 v = b := rfl
@[simp] theorem Block.writeIndex_status (b : Block) (v : Word) : b.writeIndex 5#4 v = b := rfl

@[simp] theorem Block.perform_nop (b : Block) : b.perform .nop = b := rfl
@[simp] theorem Block.perform_init (b : Block) : b.perform .init = b.startChecksum := rfl
@[simp] theorem Block.perform_absorb8 (b : Block) (x : Byte) : b.perform (.absorb8 x) = b.absorb x := rfl
@[simp] theorem Block.perform_absorbd (b : Block) (n1 : BitVec 2) : b.perform (.absorbd n1) = b.absorbData n1 := rfl
@[simp] theorem Block.perform_check (b : Block) : b.perform .check = b.compare := rfl
@[simp] theorem Block.perform_illegal (b : Block) : b.perform .illegal = b.flagIllegal := rfl

/-- What an instruction can do to the block: perform its command (its own, or the one its CMD write carries), write DATA,
write EXPECT, or nothing. -/
theorem exec_block_cases {i : Instr} {s t : State} (h : exec i s = .next t) :
    (∃ c, i.command? = some c ∧ t.block = s.block.perform c) ∨
    (i.command? = none ∧ ((∃ v, i = .wrData v ∧ t.block = s.block.setData v) ∨
      (∃ v, i = .wrExpect v ∧ t.block = s.block.setExpect v) ∨
      ((∀ v, i ≠ .wrData v) ∧ (∀ v, i ≠ .wrExpect v) ∧ t.block = s.block))) := by
  cases i <;> injection h with h <;> subst h
  case nop | init | absorb8 | absorbd | check | wrCmd => exact .inl ⟨_, rfl, rfl⟩
  case wrData v => exact .inr ⟨rfl, .inl ⟨v, rfl, rfl⟩⟩
  case wrExpect v => exact .inr ⟨rfl, .inr (.inl ⟨v, rfl, rfl⟩)⟩
  all_goals exact .inr ⟨rfl, .inr (.inr ⟨nofun, nofun, rfl⟩)⟩

/-! ### The step -/

theorem fetch_idle {s : State} (h : s.pending = []) : fetch s = .idle := by simp [fetch, h]

theorem fetch_transaction {s : State} {t : Transaction} {rest : List HostEvent}
    (h : s.pending = .transaction t :: rest) (hr : s.resetAsserted = false) :
    fetch s = .instr (decodeTransaction t) := by simp [fetch, h, acceptTransaction, hr]

theorem fetch_resetLine {s : State} {a : Bool} {rest : List HostEvent}
    (h : s.pending = .resetLine a :: rest) : fetch s = .reset a := by simp [fetch, h]

/-- Everything a step that answers a next state can have done. -/
theorem step_cases {s t : State} (h : step s = .next t) :
    (fetch s = .idle ∧ t = s) ∨
    (∃ a, fetch s = .reset a ∧ t = s.popEvent.driveReset a) ∨
    (∃ i, fetch s = .instr i ∧ exec i s.popEvent = .next t) := by
  unfold step at h
  split at h
  · injection h with h; exact .inl ⟨‹_›, h.symm⟩
  · rename_i a hf; injection h with h; exact .inr (.inl ⟨a, hf, h.symm⟩)
  · rename_i i hf; exact .inr (.inr ⟨i, hf, h⟩)
  · cases h

/-- Everything `locate` can answer with an index for. -/
theorem locate_ok {base addr width : Nat} {idx : WordIndex} (h : locate base addr width = .ok idx) :
    width = 4 ∧ addr = base + 4 * idx.toNat := by
  unfold locate at h
  split at h <;> [cases h; skip]
  split at h <;> [cases h; skip]
  split at h <;> [cases h; skip]
  injection h with h
  subst h
  simp only [BitVec.toNat_ofNat]
  omega

end Sys2Proof.Machine
end

