-- ==== Sys2Proof/Laws/Observe.lean ====
section
/-! SUPPORT. The small lemmas of a run's observation (70_reset_and_hazards.md R189), and what exec does with a decoded
transaction, said once for every index (20_memory.md R41). -/

namespace Sys2Proof.Machine

theorem Block.after_write {t : Transaction} (b : Block) (h : t.we = true) : b.after t = b.writeIndex t.idx t.wdata := if_pos h
theorem Block.after_read {t : Transaction} (b : Block) (h : t.we = false) : b.after t = b := by rw [Block.after, h]; rfl

@[simp] theorem Block.observe_nil (b : Block) : b.observe [] = ([], b) := rfl
@[simp] theorem Block.observe_cons_state (b : Block) (t : Transaction) (ts : List Transaction) :
    (b.observe (t :: ts)).2 = ((b.after t).observe ts).2 := rfl
theorem Block.observe_cons_values (b : Block) (t : Transaction) (ts : List Transaction) :
    (b.observe (t :: ts)).1 = (if t.we then [] else [b.readIndex t.idx]) ++ ((b.after t).observe ts).1 := by
  simp only [Block.observe]
  split <;> rfl

/-- The write of an index, whichever row it lies on, is BusWrite. -/
theorem exec_writeRow (idx : WordIndex) (v : Word) (s : State) : exec (writeRow idx v) s = .next (s.busWrite idx v) := by
  unfold writeRow
  by_cases h0 : idx = 0#4
  · subst h0; rfl
  by_cases h1 : idx = 1#4
  · subst h1; rfl
  by_cases h2 : idx = 2#4
  · subst h2; rfl
  have ignored : s.busWrite idx v = s := by
    simp only [State.busWrite, State.onBlock, Block.writeIndex, h0, h1, h2, if_false]
  rw [ignored]
  simp only [h0, h1, h2, if_false]
  by_cases h3 : idx = 3#4
  · subst h3; rfl
  by_cases h4 : idx = 4#4
  · subst h4; rfl
  by_cases h5 : idx = 5#4
  · subst h5; rfl
  simp only [h3, h4, h5, if_false]
  split <;> rfl

/-- The read of an index, whichever row it lies on, is BusRead. -/
theorem exec_readRow (idx : WordIndex) (s : State) : exec (readRow idx) s = .next (s.busRead idx) := by
  unfold readRow
  by_cases h0 : idx = 0#4
  · subst h0; rfl
  by_cases h1 : idx = 1#4
  · subst h1; rfl
  by_cases h2 : idx = 2#4
  · subst h2; rfl
  by_cases h3 : idx = 3#4
  · subst h3; rfl
  by_cases h4 : idx = 4#4
  · subst h4; rfl
  by_cases h5 : idx = 5#4
  · subst h5; rfl
  have zero : s.busRead idx = s.returnWord 0#32 := by
    simp only [State.busRead, Block.readIndex, h1, h2, h3, h4, h5, if_false]
  rw [zero]
  simp only [h0, h1, h2, h3, h4, h5, if_false]
  split <;> rfl

end Sys2Proof.Machine
end

