-- ==== Sys2Proof/Laws/PerInstr.lean ====
section
/-! SUPPORT. The family LiesOnItsRow: the encoding of a well-formed instruction lies on the opcode-table row it stands for
(30_encoding.md R61, R63), one lemma per constructor. -/

namespace Sys2Proof.Laws.LiesOnItsRow

def Statement (i : Instr) : Prop := i.wf = true → i.row ∈ opcodeTable ∧ i.row.accepts (encode i) = true

theorem nop : Statement .nop := fun _ => by decide
theorem init : Statement .init := fun _ => by decide
theorem absorb8 (imm8 : Byte) : Statement (.absorb8 imm8) := fun _ => by
  refine ⟨by simp [Instr.row, opcodeTable, commandRows], ?_⟩
  simp only [Instr.row, encode, Row.accepts, beq_iff_eq]
  decide +kernel +revert
theorem absorbd (n1 : BitVec 2) : Statement (.absorbd n1) := fun _ => by
  refine ⟨by simp [Instr.row, opcodeTable, commandRows], ?_⟩
  simp only [Instr.row, encode, Row.accepts, beq_iff_eq]
  decide +revert
theorem check : Statement .check := fun _ => by decide
theorem wrCmd (v : Word) : Statement (.wrCmd v) := fun _ =>
  ⟨(by decide : (.transaction 0x10#5 0x1F#5) ∈ opcodeTable),
    (by decide : (keyOf true 0#4 &&& 0x1F#5 == 0x10#5) = true)⟩
theorem rdCmd : Statement .rdCmd := fun _ => by decide
theorem wrData (v : Word) : Statement (.wrData v) := fun _ =>
  ⟨(by decide : (.transaction 0x11#5 0x1F#5) ∈ opcodeTable),
    (by decide : (keyOf true 1#4 &&& 0x1F#5 == 0x11#5) = true)⟩
theorem rdData : Statement .rdData := fun _ => by decide
theorem wrExpect (v : Word) : Statement (.wrExpect v) := fun _ =>
  ⟨(by decide : (.transaction 0x12#5 0x1F#5) ∈ opcodeTable),
    (by decide : (keyOf true 2#4 &&& 0x1F#5 == 0x12#5) = true)⟩
theorem rdExpect : Statement .rdExpect := fun _ => by decide
theorem wrResult (v : Word) : Statement (.wrResult v) := fun _ =>
  ⟨(by decide : (.transaction 0x13#5 0x1F#5) ∈ opcodeTable),
    (by decide : (keyOf true 3#4 &&& 0x1F#5 == 0x13#5) = true)⟩
theorem rdResult : Statement .rdResult := fun _ => by decide
theorem wrCount (v : Word) : Statement (.wrCount v) := fun _ =>
  ⟨(by decide : (.transaction 0x14#5 0x1F#5) ∈ opcodeTable),
    (by decide : (keyOf true 4#4 &&& 0x1F#5 == 0x14#5) = true)⟩
theorem rdCount : Statement .rdCount := fun _ => by decide
theorem wrStatus (v : Word) : Statement (.wrStatus v) := fun _ =>
  ⟨(by decide : (.transaction 0x15#5 0x1F#5) ∈ opcodeTable),
    (by decide : (keyOf true 5#4 &&& 0x1F#5 == 0x15#5) = true)⟩
theorem rdStatus : Statement .rdStatus := fun _ => by decide
theorem wrR6R7 (idx : WordIndex) (v : Word) : Statement (.wrR6R7 idx v) := fun h =>
  ⟨(by decide : (.transaction 0x16#5 0x1E#5) ∈ opcodeTable),
    (by decide : ∀ k : WordIndex, isR6R7 k = true → (keyOf true k &&& 0x1E#5 == 0x16#5) = true) idx h⟩
theorem rdR6R7 (idx : WordIndex) : Statement (.rdR6R7 idx) := fun h =>
  ⟨(by decide : (.transaction 0x06#5 0x1E#5) ∈ opcodeTable),
    (by decide : ∀ k : WordIndex, isR6R7 k = true → (keyOf false k &&& 0x1E#5 == 0x06#5) = true) idx h⟩
theorem wrR8R15 (idx : WordIndex) (v : Word) : Statement (.wrR8R15 idx v) := fun h =>
  ⟨(by decide : (.transaction 0x18#5 0x18#5) ∈ opcodeTable),
    (by decide : ∀ k : WordIndex, isR8R15 k = true → (keyOf true k &&& 0x18#5 == 0x18#5) = true) idx h⟩
theorem rdR8R15 (idx : WordIndex) : Statement (.rdR8R15 idx) := fun h =>
  ⟨(by decide : (.transaction 0x08#5 0x18#5) ∈ opcodeTable),
    (by decide : ∀ k : WordIndex, isR8R15 k = true → (keyOf false k &&& 0x18#5 == 0x08#5) = true) idx h⟩

end Sys2Proof.Laws.LiesOnItsRow
end

