-- ==== Sys2Proof/Laws/Run.lean ====
section
/-! SUPPORT. Runs of the machine behind the host's interface, one step at a time (70_reset_and_hazards.md R189). The
interface's types are the machine's only by unfolding `core`, so proofs go through these lemmas. -/

namespace Sys2Proof.Machine

/-- One step of any machine, then the rest of its run. -/
theorem run_step (M : Host.Core) {s t : M.State} (h : M.step s = .next t) (k : Nat) : M.run (k + 1) s = M.run k t := by
  simp only [Host.Core.run, h]

/-- Runs compose: the second begins where the first ends. -/
theorem run_compose (M : Host.Core) {j k : Nat} {s t : M.State} (h : M.run j s = .next t) :
    M.run (j + k) s = M.run k t := by
  induction j generalizing s with
  | zero =>
    simp only [Host.Core.run, Host.Outcome.next.injEq] at h
    rw [Nat.zero_add, h]
  | succ j ih =>
    rw [Nat.succ_add]
    simp only [Host.Core.run] at h ⊢
    split at h
    · exact ih h
    · cases h
    · cases h

theorem run_zero (s : State) : Sys2Proof.core.run 0 s = (.next s : Host.Outcome State Fault Refusal) := rfl

theorem run_succ {s t : State} (h : step s = .next t) (k : Nat) :
    Sys2Proof.core.run (k + 1) s = Sys2Proof.core.run k t := run_step Sys2Proof.core h k

theorem run_add {j k : Nat} {s t : State} (h : Sys2Proof.core.run j s = .next t) :
    Sys2Proof.core.run (j + k) s = Sys2Proof.core.run k t := run_compose Sys2Proof.core h

/-- Issuing one list before another is issuing their concatenation. -/
theorem State.issue_append (s : State) (l m : List Transaction) : s.issue (l ++ m) = (s.issue m).issue l := by
  simp [State.issue]

/-- One issued transaction is one step of exec, where reset is not asserted. -/
theorem step_issue {s : State} (hr : s.resetAsserted = false) (t : Transaction) (ts : List Transaction) :
    step (s.issue (t :: ts)) = exec (decodeTransaction t) (s.issue ts) := by
  have h : fetch (s.issue (t :: ts)) = .instr (decodeTransaction t) := fetch_transaction rfl hr
  simp only [step, h]
  rfl

end Sys2Proof.Machine
end

