-- ==== Sys2Proof/Laws/Step.lean ====
section
/-! SUPPORT. What one step can do to the block, said once: every whole-machine rule of 10_state.md follows from it. -/

namespace Sys2Proof.Machine

/-- A step resets the block, performs a command on it, writes DATA, writes EXPECT, or leaves it alone. -/
theorem step_block_cases {s t : State} (h : step s = .next t) :
    (s.resets = true ∧ s.command? = none ∧ (∀ i, fetch s ≠ .instr i) ∧ t.block = Block.reset) ∨
    (s.resets = false ∧ (∃ c, s.command? = some c ∧ t.block = s.block.perform c) ∧
      (∀ v, fetch s ≠ .instr (.wrData v)) ∧ (∀ v, fetch s ≠ .instr (.wrExpect v))) ∨
    (s.resets = false ∧ s.command? = none ∧ ∃ v, fetch s = .instr (.wrData v) ∧ t.block = s.block.setData v) ∨
    (s.resets = false ∧ s.command? = none ∧ ∃ v, fetch s = .instr (.wrExpect v) ∧ t.block = s.block.setExpect v) ∨
    (s.resets = false ∧ s.command? = none ∧ (∀ v, fetch s ≠ .instr (.wrData v)) ∧
      (∀ v, fetch s ≠ .instr (.wrExpect v)) ∧ t.block = s.block) := by
  simp only [State.resets, State.command?]
  rcases step_cases h with ⟨hf, rfl⟩ | ⟨a, hf, rfl⟩ | ⟨i, hf, he⟩
  · simp [hf]
  · cases ha : (a || s.resetAsserted)
    · have hb := State.driveReset_block_same (s := s.popEvent) ha
      simp [hf, ha, hb]
    · have hb := State.driveReset_block_reset (s := s.popEvent) ha
      simp [hf, ha, hb]
  · rcases exec_block_cases he with ⟨c, hc, hb⟩ | ⟨hc, ⟨v, rfl, hb⟩ | ⟨v, rfl, hb⟩ | ⟨hd, hx, hb⟩⟩
    · have hd : ∀ v, i ≠ .wrData v := by rintro v rfl; cases hc
      have hx : ∀ v, i ≠ .wrExpect v := by rintro v rfl; cases hc
      simp [hf, hc, hb, hd, hx]
    · simp [hf, hc, hb]
    · simp [hf, hc, hb]
    · simp [hf, hc, hb, hd, hx]

end Sys2Proof.Machine
end

