-- ==== Sys2Proof/Tests/Slice0.lean ====
section
/-! SUPPORT. The model's own tests. Expected values come from spec/95_test_vectors.md and from the encodings of
30_encoding.md, never from the model. Then one witness for each hypothesis of the statements in Obligations.lean. -/

namespace Sys2Proof.Tests

open Sys2Proof.Machine

/-! ### Helpers -/

/-- The block in its reset state but for these fields; nothing issued, nothing returned. -/
def state (S COUNT DATA EXPECT : Word) (MATCH CHECKED ILLEGAL WRAP : Bool) : State :=
  { State.reset with block := ⟨S, COUNT, DATA, EXPECT, MATCH, CHECKED, ILLEGAL, WRAP⟩ }

/-- Reset, with these events issued. -/
def issued (events : List HostEvent) : State := { State.reset with pending := events }

/-- The reset input asserted, with these events issued. -/
def heldInReset (events : List HostEvent) : State := { State.reset with resetAsserted := true, pending := events }

/-- After `crc.check` from reset: STATUS 0x3. -/
def checked : State := state 0xFFFFFFFF#32 0#32 0#32 0#32 true true false false

/-- The block after one instruction; none where it stops. -/
def blockAfter (i : Instr) (s : State) : Option Block :=
  match exec i s with
  | .next t => some t.block
  | .fault _ => none
  | .refused _ => none

/-- The words returned after one instruction; none where it stops. -/
def wordsAfter (i : Instr) (s : State) : Option (List Word) :=
  match exec i s with
  | .next t => some t.returned
  | .fault _ => none
  | .refused _ => none

/-! ### WellFormed refuses -/

theorem test_wf_refuses_wrR6R7_below : (Instr.wrR6R7 5#4 0#32).wf = false := by decide
theorem test_wf_refuses_wrR6R7_above : (Instr.wrR6R7 8#4 0#32).wf = false := by decide
theorem test_wf_refuses_rdR6R7_below : (Instr.rdR6R7 0#4).wf = false := by decide
theorem test_wf_refuses_rdR6R7_above : (Instr.rdR6R7 15#4).wf = false := by decide
theorem test_wf_refuses_wrR8R15 : (Instr.wrR8R15 7#4 0#32).wf = false := by decide
theorem test_wf_refuses_rdR8R15 : (Instr.rdR8R15 7#4).wf = false := by decide

/-! ### Every constructor's decoding, from a word written out (30_encoding.md R61, R63; 95_test_vectors.md 2.6) -/

theorem test_decode_nop : decode (.command 0b00000000000000000000000000000000#32) = .ok .nop := rfl
theorem test_decode_init : decode (.command 0b00000001000000000000000000000000#32) = .ok .init := rfl
theorem test_decode_absorb8 : decode (.command 0b00000010000000000000000010100101#32) = .ok (.absorb8 0xA5#8) := rfl
theorem test_decode_absorbd_1 : decode (.command 0b00000011000000000000000000000000#32) = .ok (.absorbd 0#2) := rfl
theorem test_decode_absorbd_4 : decode (.command 0b00000011000000000000000000000011#32) = .ok (.absorbd 3#2) := rfl
theorem test_decode_check : decode (.command 0b00000100000000000000000000000000#32) = .ok .check := rfl

theorem test_decode_writes :
    decode (.transaction ⟨0b10000#5, 7#32⟩) = .ok (.wrCmd 7#32) ∧
    decode (.transaction ⟨0b10001#5, 7#32⟩) = .ok (.wrData 7#32) ∧
    decode (.transaction ⟨0b10010#5, 7#32⟩) = .ok (.wrExpect 7#32) ∧
    decode (.transaction ⟨0b10011#5, 7#32⟩) = .ok (.wrResult 7#32) ∧
    decode (.transaction ⟨0b10100#5, 7#32⟩) = .ok (.wrCount 7#32) ∧
    decode (.transaction ⟨0b10101#5, 7#32⟩) = .ok (.wrStatus 7#32) ∧
    decode (.transaction ⟨0b10110#5, 7#32⟩) = .ok (.wrR6R7 6#4 7#32) ∧
    decode (.transaction ⟨0b10111#5, 7#32⟩) = .ok (.wrR6R7 7#4 7#32) ∧
    decode (.transaction ⟨0b11000#5, 7#32⟩) = .ok (.wrR8R15 8#4 7#32) ∧
    decode (.transaction ⟨0b11111#5, 7#32⟩) = .ok (.wrR8R15 15#4 7#32) :=
  ⟨rfl, rfl, rfl, rfl, rfl, rfl, rfl, rfl, rfl, rfl⟩

theorem test_decode_reads :
    decode (.transaction ⟨0b00000#5, 7#32⟩) = .ok .rdCmd ∧ decode (.transaction ⟨0b00001#5, 7#32⟩) = .ok .rdData ∧
    decode (.transaction ⟨0b00010#5, 7#32⟩) = .ok .rdExpect ∧ decode (.transaction ⟨0b00011#5, 7#32⟩) = .ok .rdResult ∧
    decode (.transaction ⟨0b00100#5, 7#32⟩) = .ok .rdCount ∧ decode (.transaction ⟨0b00101#5, 7#32⟩) = .ok .rdStatus ∧
    decode (.transaction ⟨0b00110#5, 7#32⟩) = .ok (.rdR6R7 6#4) ∧
    decode (.transaction ⟨0b00111#5, 7#32⟩) = .ok (.rdR6R7 7#4) ∧
    decode (.transaction ⟨0b01000#5, 7#32⟩) = .ok (.rdR8R15 8#4) ∧
    decode (.transaction ⟨0b01111#5, 7#32⟩) = .ok (.rdR8R15 15#4) :=
  ⟨rfl, rfl, rfl, rfl, rfl, rfl, rfl, rfl, rfl, rfl⟩

theorem test_decode_illegal_words :
    decodeCommand 0x00000001#32 = .illegal ∧ decodeCommand 0x01800000#32 = .illegal ∧ decodeCommand 0x02000100#32 = .illegal ∧
    decodeCommand 0x03000004#32 = .illegal ∧ decodeCommand 0x04000001#32 = .illegal ∧ decodeCommand 0x05000000#32 = .illegal ∧
    decodeCommand 0x80000000#32 = .illegal ∧ decodeCommand 0xFF000000#32 = .illegal ∧ decodeCommand 0xFFFFFFFF#32 = .illegal :=
  ⟨rfl, rfl, rfl, rfl, rfl, rfl, rfl, rfl, rfl⟩

theorem test_table_words_refused :
    decodeTableWord 32 0x02000100 = none ∧ decodeTableWord 32 0xFFFFFFFF = none := by decide

theorem test_table_words : decodeTableWord 32 0x020000A5 = some (.absorb8 0xA5#8) ∧
    decodeTableWord 8 0x10 = some (.wrCmd 0#32) ∧ decodeTableWord 5 0x0F = some (.rdR8R15 15#4) ∧
    decodeTableWord 8 0x20 = none ∧ decodeTableWord 16 0 = none := by decide

/-- Two rows differ in a bit that both masks fix, so no code lies on both. -/
def apart : Row → Row → Bool
  | .command p m, .command q n => (p ^^^ q) &&& m &&& n != 0#32
  | .transaction p m, .transaction q n => (p ^^^ q) &&& m &&& n != 0#5
  | .command _ _, .transaction _ _ => true
  | .transaction _ _, .command _ _ => true

theorem test_table_rows_apart : opcodeTable.length = 21 ∧ List.Pairwise (fun r q => apart r q = true) opcodeTable := by
  decide +kernel

/-! ### The CRC function (95_test_vectors.md 2.1) -/

theorem test_crc_one_byte : crc32 [0x00#8] = 0xD202EF8D#32 ∧ crc32 [0x80#8] = 0x3FBA6CAD#32 := by decide +kernel
theorem test_crc_check_value :
    crc32 [0x31#8, 0x32#8, 0x33#8, 0x34#8, 0x35#8, 0x36#8, 0x37#8, 0x38#8, 0x39#8] = 0xCBF43926#32 := by decide +kernel
theorem test_byteStep : byteStep 0x2B7BF6C3#32 0x54#8 = 0x6E407D11#32 ∧ byteStep 0xDEADBEEF#32 0x00#8 = 0x306B5257#32 ∧
    byteStep 0x80000000#32 0x00#8 = 0x00800000#32 := by decide +kernel
theorem test_table_entries : crcTable 0x01#8 = 0x77073096#32 ∧ crcTable 0x10#8 = 0x1DB71064#32 ∧
    crcTable 0xFE#8 = 0x5A05DF1B#32 := by decide +kernel

/-! ### The commands, one step each (95_test_vectors.md 2.2 to 2.5) -/

theorem test_nop_keeps_the_check : blockAfter .nop checked = some checked.block := by decide
theorem test_init_clears_sticky_flags :
    blockAfter .init (state 0x57449344#32 0#32 0x11111111#32 0x22222222#32 false false true true)
      = some ⟨0xFFFFFFFF#32, 0#32, 0x11111111#32, 0x22222222#32, false, false, false, false⟩ := by decide
theorem test_absorb8_clears_the_check :
    blockAfter (.absorb8 0x00#8) checked = some ⟨0x2DFD1072#32, 1#32, 0#32, 0#32, false, false, false, false⟩ := by
  decide +kernel
theorem test_absorb8_wraps :
    blockAfter (.absorb8 0x00#8) (state 0xFFFFFFFF#32 0xFFFFFFFF#32 0#32 0#32 false false false false)
      = some ⟨0x2DFD1072#32, 0#32, 0#32, 0#32, false, false, false, true⟩ := by decide +kernel
theorem test_absorbd_takes_the_top_bytes :
    blockAfter (.absorbd 2#2) (state 0xFFFFFFFF#32 0#32 0x313233FF#32 0#32 false false false false)
      = some ⟨0x77B79C2D#32, 3#32, 0x313233FF#32, 0#32, false, false, false, false⟩ := by decide +kernel
theorem test_absorbd_wraps_midway :
    blockAfter (.absorbd 3#2) (state 0xFFFFFFFF#32 0xFFFFFFFE#32 0x41424344#32 0#32 false false false false)
      = some ⟨0x24E8DF5A#32, 2#32, 0x41424344#32, 0#32, false, false, false, true⟩ := by decide +kernel
theorem test_check_matches :
    blockAfter .check (state 0x51BD9F7D#32 4#32 0x49454E44#32 0xAE426082#32 false false false false)
      = some ⟨0x51BD9F7D#32, 4#32, 0x49454E44#32, 0xAE426082#32, true, true, false, false⟩ := by decide
theorem test_check_one_bit_different :
    blockAfter .check (state 0x51BD9F7D#32 4#32 0x49454E44#32 0xAE426083#32 true true false false)
      = some ⟨0x51BD9F7D#32, 4#32, 0x49454E44#32, 0xAE426083#32, false, true, false, false⟩ := by decide

/-! ### The transactions, one step each (95_test_vectors.md 2.6, 2.7) -/

theorem test_wrCmd_absorbs :
    blockAfter (.wrCmd 0x02000031#32) State.reset = some ⟨0x7C231048#32, 1#32, 0#32, 0#32, false, false, false, false⟩ := by
  decide +kernel
theorem test_wrCmd_illegal_keeps_the_check :
    blockAfter (.wrCmd 0x04000001#32) checked = some ⟨0xFFFFFFFF#32, 0#32, 0#32, 0#32, true, true, true, false⟩ := by decide
theorem test_rdCmd : wordsAfter .rdCmd checked = some [0#32] := by decide
theorem test_wrData : blockAfter (.wrData 7#32) checked = some { checked.block with DATA := 7#32 } := by decide
theorem test_rdData :
    wordsAfter .rdData (state 0xFFFFFFFF#32 0#32 0x65210000#32 0#32 false false false false) = some [0x65210000#32] := by decide
theorem test_wrExpect_same_value : blockAfter (.wrExpect 0#32) checked = some State.reset.block := by decide
theorem test_rdExpect :
    wordsAfter .rdExpect (state 0#32 0#32 0#32 0x1F15C489#32 false false false false) = some [0x1F15C489#32] := by decide
theorem test_wrResult : blockAfter (.wrResult 7#32) checked = some checked.block := by decide
theorem test_rdResult :
    wordsAfter .rdResult (state 0x542E27B1#32 46#32 0#32 0#32 false false false false) = some [0xABD1D84E#32] := by decide
theorem test_wrCount : blockAfter (.wrCount 7#32) checked = some checked.block := by decide
theorem test_rdCount :
    wordsAfter .rdCount (state 0x542E27B1#32 46#32 0#32 0#32 false false false false) = some [0x0000002E#32] := by decide
theorem test_wrStatus_clears_nothing :
    blockAfter (.wrStatus 0#32) (state 0xFFFFFFFF#32 0#32 0#32 0#32 false false true false)
      = some ⟨0xFFFFFFFF#32, 0#32, 0#32, 0#32, false, false, true, false⟩ := by decide
theorem test_rdStatus_match : wordsAfter .rdStatus checked = some [0x3#32] := by decide
theorem test_rdStatus_sticky :
    wordsAfter .rdStatus (state 0#32 0#32 0#32 0#32 false false true true) = some [0xC#32] := by decide
theorem test_wrR6R7 : blockAfter (.wrR6R7 6#4 1#32) checked = some checked.block := by decide
theorem test_rdR6R7 : wordsAfter (.rdR6R7 7#4) checked = some [0#32] := by decide
theorem test_wrR8R15 : blockAfter (.wrR8R15 9#4 1#32) checked = some checked.block := by decide
theorem test_rdR8R15 : wordsAfter (.rdR8R15 9#4) checked = some [0#32] := by decide

/-! ### The step -/

theorem test_withFetchWord_command :
    step (State.reset.withFetchWord 32 0x04000000) = .next checked := rfl
theorem test_withFetchWord_read :
    step (State.reset.withFetchWord 8 0x03) = .next { State.reset with returned := [0#32] } := rfl
theorem test_reset_line :
    step { checked with pending := [.resetLine true] } = .next (heldInReset []) := rfl
theorem test_release_reset : step (heldInReset [.resetLine false]) = .next State.reset := rfl

/-! ### The host's notation and procedures -/

/-- 30_encoding.md R73: "12345" is one word and one tail. -/
theorem test_crc_bytes : crcBytes [0x31#8, 0x32#8, 0x33#8, 0x34#8, 0x35#8] =
    [⟨0b10001#5, 0x31323334#32⟩, ⟨0b10000#5, 0x03000003#32⟩, ⟨0b10001#5, 0x35000000#32⟩, ⟨0b10000#5, 0x03000000#32⟩] := by
  decide
/-- 43_chunk_framing.md R144, with an empty payload (95_test_vectors.md V3). -/
theorem test_generator : generator (Chunk.mk 0x49#8 0x45#8 0x4E#8 0x44#8 [] 0#32) = some
    [⟨0b10000#5, 0x01000000#32⟩, ⟨0b10001#5, 0x49454E44#32⟩, ⟨0b10000#5, 0x03000003#32⟩, ⟨0b00011#5, 0#32⟩] := by decide
/-- 70_reset_and_hazards.md R189: the observation of P2's last transactions (95_test_vectors.md 2.5): one read, STATUS 0x3. -/
theorem test_observe :
    (Block.observe ⟨0x51BD9F7D#32, 4#32, 0x49454E44#32, 0#32, false, false, false, false⟩ (crcVerify 0xAE426082#32)).1
      = [0x3#32] := by decide

/-- 43_chunk_framing.md R146, the last three transactions. -/
theorem test_verify : crcVerify 0xAE426082#32 =
    [⟨0b10010#5, 0xAE426082#32⟩, ⟨0b10000#5, 0x04000000#32⟩, ⟨0b00101#5, 0#32⟩] := by decide
/-- 93_implementation_defined.md U1: a payload of 2^32 bytes is refused at the host. -/
theorem test_payload_limit : (Chunk.mk 0x49#8 0x45#8 0x4E#8 0x44#8 (List.replicate (2 ^ 32) 0#8) 0#32).fits = false := by
  simp only [Chunk.fits, List.length_replicate]
  decide

/-- 43_chunk_framing.md R141 and R147: the checksum lies at 8 + Length, not at the end of the buffer. -/
theorem test_chunkAt : chunkAt ([0#8, 0#8, 0#8, 1#8] ++ [0x52#8, 0x75#8, 0x53#8, 0x74#8] ++ [9#8] ++
      [0xAB#8, 0xD1#8, 0xD8#8, 0x4E#8] ++ [1#8, 2#8]) =
    ⟨0x52#8, 0x75#8, 0x53#8, 0x74#8, [9#8], 0xABD1D84E#32⟩ := by decide
theorem test_hostAccepts : hostAccepts true 0x2#32 = false ∧ hostAccepts false 0x2#32 = true ∧
    hostAccepts true 0x3#32 = true := by decide

/-! ### Witnesses: for each statement with hypotheses, states and operands that meet them, clause by clause -/

theorem witness_ResetEventSetsEveryElement :
    (issued [.resetLine true, .resetLine false, .transaction ⟨0b00011#5, 0#32⟩]).pending
      = .resetLine true :: .resetLine false :: .transaction ⟨0b00011#5, 0#32⟩ :: [] := rfl

theorem witness_NothingIsAcceptedWhileResetIsAsserted :
    ((heldInReset [.transaction ⟨0b00011#5, 0#32⟩]).resetAsserted = true ∧
      (heldInReset [.transaction ⟨0b00011#5, 0#32⟩]).pending = .transaction ⟨0b00011#5, 0#32⟩ :: []) ∧
    ((heldInReset [.byteAccess true 0 4 0#32]).resetAsserted = true ∧
      (heldInReset [.byteAccess true 0 4 0#32]).pending = .byteAccess true 0 4 0#32 :: []) ∧
    ((heldInReset [.resetLine false]).resetAsserted = true ∧
      (heldInReset [.resetLine false]).pending = .resetLine false :: []) ∧
    ({ checked with pending := [.resetLine true, .resetLine false] } : State).pending
      = .resetLine true :: .resetLine false :: [] := by decide

/-- A state that has the invariant, with a write of EXPECT issued: the step is not idle. -/
theorem witness_EveryStepKeepsTheCheckFlagsCoherent :
    ({ checked with pending := [.transaction ⟨0b10010#5, 5#32⟩] } : State).inv ∧
    step { checked with pending := [.transaction ⟨0b10010#5, 5#32⟩] }
      = .next (state 0xFFFFFFFF#32 0#32 0#32 5#32 false false false false) :=
  ⟨⟨⟨fun _ => by decide, nofun⟩, nofun⟩, rfl⟩

theorem witness_CommandWordsDecodeByTheirTests :
    0x020000FF#32 &&& 0xFFFFFF00#32 = 0x02000000#32 ∧ 0x03000003#32 &&& 0xFFFFFFFC#32 = 0x03000000#32 ∧
    (0x02000100#32 ≠ 0x00000000#32 ∧ 0x02000100#32 ≠ 0x01000000#32 ∧ 0x02000100#32 &&& 0xFFFFFF00#32 ≠ 0x02000000#32 ∧
      0x02000100#32 &&& 0xFFFFFFFC#32 ≠ 0x03000000#32 ∧ 0x02000100#32 ≠ 0x04000000#32) := by decide

theorem witness_LegalWordsLieOnExactlyOneRow :
    (.command 0x02000000#32 0xFFFFFF00#32) ∈ commandRows ∧
    (Row.command 0x02000000#32 0xFFFFFF00#32).accepts (.command 0x020000FF#32) = true ∧
    5 ≤ (opOf 0x05000000#32).toNat ∧ 5 ≤ (opOf 0xFF000000#32).toNat := by decide

theorem witness_TransactionKeysSelectTheirRows :
    (6 ≤ (6#4).toNat ∧ (6#4).toNat ≤ 7) ∧ (6 ≤ (7#4).toNat ∧ (7#4).toNat ≤ 7) ∧ 8 ≤ (8#4).toNat ∧ 8 ≤ (15#4).toNat := by
  decide

theorem witness_DecodingAnEncodingGivesTheInstruction :
    (Instr.absorbd 3#2).wf = true ∧ (Instr.wrR6R7 7#4 1#32).wf = true ∧ (Instr.rdR8R15 8#4).wf = true := by decide

/-- For EncodingADecodedCodeGivesTheCode and DecodedCodesLieOnOneRowOfTheTable: one code of each layer. -/
theorem witness_decoded_code :
    decode (.command 0x03000003#32) = .ok (.absorbd 3#2) ∧
    decode (.transaction ⟨0b00101#5, 9#32⟩) = .ok .rdStatus ∧
    (Row.transaction 0x05#5 0x1F#5) ∈ opcodeTable ∧
    (Row.transaction 0x05#5 0x1F#5).accepts (.transaction ⟨0b00101#5, 9#32⟩) = true :=
  ⟨rfl, rfl, by decide, by decide⟩

theorem witness_AssembledCommandsAreLegalWords :
    (255 : Nat) ≤ 255 ∧ (255 : Nat) < 256 ∧ (1 ≤ 4 ∧ 4 ≤ 4) ∧ ((0 : Nat) = 0 ∨ 4 < 0) ∧ ((5 : Nat) = 0 ∨ 4 < 5) := by
  decide

theorem witness_StepRunsTheDecodedInstruction :
    (issued [.transaction ⟨0b10000#5, 0x020000A5#32⟩]).resetAsserted = false ∧
    (issued [.transaction ⟨0b10000#5, 0x020000A5#32⟩]).pending = .transaction ⟨0b10000#5, 0x020000A5#32⟩ :: [] ∧
    decode (.command 0x020000A5#32) = .ok (.absorb8 0xA5#8) := ⟨rfl, rfl, rfl⟩

theorem witness_TableWordRunsAsTheNextStep :
    decodeTableWord 32 0x04000000 = some .check ∧ decodeTableWord 8 0x11 = some (.wrData 0#32) := by decide

theorem witness_IdleBlockKeepsItsState : checked.pending = [] := rfl

theorem witness_ByteAddressesSelectTheirIndex :
    (issued [.byteAccess false (Config.crcBase + 4 * (15#4).toNat) 4 0#32]).resetAsserted = false ∧
    (issued [.byteAccess false (Config.crcBase + 4 * (15#4).toNat) 4 0#32]).pending
      = .byteAccess false (Config.crcBase + 4 * (15#4).toNat) 4 0#32 :: [] := ⟨rfl, rfl⟩

/-- For MisalignedOrWrongWidthAccessesAreRefused, first ground, at the window's last byte. -/
theorem witness_misaligned_access :
    (issued [.byteAccess true (Config.crcBase + 63) 4 0#32]).pending = .byteAccess true (Config.crcBase + 63) 4 0#32 :: [] ∧
    Config.crcBase ≤ Config.crcBase + 63 ∧ Config.crcBase + 63 < Config.crcBase + 64 ∧
    ((Config.crcBase + 63 - Config.crcBase) % 4 ≠ 0 ∨ 4 ≠ 4) := ⟨rfl, by omega, by omega, by omega⟩

/-- For MisalignedOrWrongWidthAccessesAreRefused, second ground, at the window's first byte. -/
theorem witness_narrow_access :
    (issued [.byteAccess true Config.crcBase 1 0#32]).pending = .byteAccess true Config.crcBase 1 0#32 :: [] ∧
    Config.crcBase ≤ Config.crcBase ∧ Config.crcBase < Config.crcBase + 64 ∧
    ((Config.crcBase - Config.crcBase) % 4 ≠ 0 ∨ 1 ≠ 4) := ⟨rfl, by omega, by omega, by omega⟩

theorem witness_EveryInstructionCompletes : Instr.rdStatus.isRead = true ∧ Instr.check.isRead = false := by decide

/-- For RunsOfTransactionsAlwaysEnd, PseudoBytesAbsorbExactlyTheirBytes, GeneratorReturnsTheChunkChecksum,
CheckerReportsWhetherTheChecksumMatches and OnlyAVerifyingHostRejectsAMismatch: the reset input is released. -/
theorem witness_running : checked.resetAsserted = false := rfl

theorem witness_NopChangesNothing : opOf 0x00800000#32 = 0x00#8 ∧ 0x00800000#32 ≠ 0x00000000#32 := by decide

theorem witness_InitStartsANewChecksum :
    exec .init (state 0#32 0#32 0#32 0#32 false false true true)
      = .next (state 0xFFFFFFFF#32 0#32 0#32 0#32 false false false false) ∧
    (state 0#32 0#32 0#32 0#32 false false true true).block.ILLEGAL = true ∧
    (state 0xFFFFFFFF#32 0#32 0#32 0#32 false false false false).block.ILLEGAL = false := ⟨rfl, rfl, rfl⟩

/-- For Absorb8FeedsItsByte and AbsorbdFeedsTheTopBytesOfData: the lowest and the highest reserved bit. -/
theorem witness_reserved_operand_bits :
    (opOf 0x02000100#32 = 0x02#8 ∧ (0x02000100#32).extractLsb' 8 16 ≠ 0#16) ∧
    (opOf 0x02800000#32 = 0x02#8 ∧ (0x02800000#32).extractLsb' 8 16 ≠ 0#16) ∧
    (opOf 0x03000004#32 = 0x03#8 ∧ (0x03000004#32).extractLsb' 2 22 ≠ 0#22) ∧
    (opOf 0x03800000#32 = 0x03#8 ∧ (0x03800000#32).extractLsb' 2 22 ≠ 0#22) := by decide

theorem witness_WritingCmdPerformsTheCommand :
    decodeCommand 0x00000000#32 = .nop ∧ decodeCommand 0x01000000#32 = .init ∧
    decodeCommand 0x020000FF#32 = .absorb8 0xFF#8 ∧ decodeCommand 0x03000000#32 = .absorbd 0#2 ∧
    decodeCommand 0x04000000#32 = .check ∧ decodeCommand 0xFFFFFFFF#32 = .illegal := by decide

/-- n = 1 and n = 3: the ignored bits differ, the bits absorbed do not. -/
theorem witness_IgnoredBitsOfDataDoNotMatter :
    0x31FFFFFF#32 >>> (24 - 8 * (0#2).toNat)
      = (state 0#32 0#32 0x31323334#32 0#32 false false false false).block.DATA >>> (24 - 8 * (0#2).toNat) ∧
    0x313233FF#32 >>> (24 - 8 * (2#2).toNat)
      = (state 0#32 0#32 0x31323334#32 0#32 false false false false).block.DATA >>> (24 - 8 * (2#2).toNat) := by decide

theorem witness_EveryIndexReadsAndWritesAsTheTableSays :
    (Transaction.mk 0b01111#5 0#32).we = false ∧ (Transaction.mk 0b10000#5 0#32).we = true ∧
    (Transaction.mk 0b10000#5 0#32).idx = 0#4 ∧ (Transaction.mk 0b10001#5 0#32).idx = 1#4 ∧
    (Transaction.mk 0b10010#5 0#32).idx = 2#4 ∧ 3 ≤ (Transaction.mk 0b10011#5 0#32).idx.toNat ∧
    decode (.command 0x00000000#32) = .ok .nop := ⟨rfl, rfl, rfl, rfl, rfl, by decide, rfl⟩

/-- For the rules over every step (DATA, EXPECT, S and COUNT, MATCH and CHECKED, ILLEGAL, WRAP): a reset, a write of DATA, a
write of EXPECT, INIT, CHECK and an illegal word. -/
theorem witness_steps :
    (step (issued [.resetLine true]) = .next (heldInReset []) ∧ (issued [.resetLine true]).resets = true) ∧
    (step (issued [.transaction ⟨0b10001#5, 7#32⟩]) = .next (state 0xFFFFFFFF#32 0#32 7#32 0#32 false false false false) ∧
      fetch (issued [.transaction ⟨0b10001#5, 7#32⟩]) = .instr (.wrData 7#32) ∧
      (issued [.transaction ⟨0b10001#5, 7#32⟩]).resets = false) ∧
    (step (issued [.transaction ⟨0b10010#5, 7#32⟩]) = .next (state 0xFFFFFFFF#32 0#32 0#32 7#32 false false false false) ∧
      fetch (issued [.transaction ⟨0b10010#5, 7#32⟩]) = .instr (.wrExpect 7#32)) ∧
    (step (issued [.transaction ⟨0b10000#5, 0x01000000#32⟩]) = .next State.reset ∧
      (issued [.transaction ⟨0b10000#5, 0x01000000#32⟩]).command? = some .init) ∧
    (step (issued [.transaction ⟨0b10000#5, 0x04000000#32⟩]) = .next checked ∧
      (issued [.transaction ⟨0b10000#5, 0x04000000#32⟩]).command? = some .check) ∧
    (step (issued [.transaction ⟨0b10000#5, 0x05000000#32⟩])
        = .next (state 0xFFFFFFFF#32 0#32 0#32 0#32 false false true false) ∧
      (issued [.transaction ⟨0b10000#5, 0x05000000#32⟩]).command? = some .illegal) :=
  ⟨⟨rfl, rfl⟩, ⟨rfl, rfl, rfl⟩, ⟨rfl, rfl⟩, ⟨rfl, rfl⟩, ⟨rfl, rfl⟩, ⟨rfl, rfl⟩⟩

/-- For the same statements: a step of ABSORB8 and one of ABSORBD. -/
theorem witness_absorbing_steps :
    (∃ t, step (issued [.transaction ⟨0b10000#5, 0x020000FF#32⟩]) = .next t) ∧
    (issued [.transaction ⟨0b10000#5, 0x020000FF#32⟩]).command? = some (.absorb8 0xFF#8) ∧
    (∃ t, step (issued [.transaction ⟨0b10000#5, 0x03000003#32⟩]) = .next t) ∧
    (issued [.transaction ⟨0b10000#5, 0x03000003#32⟩]).command? = some (.absorbd 3#2) ∧
    (Command.absorb8 0xFF#8).absorbs = true := ⟨⟨_, rfl⟩, rfl, ⟨_, rfl⟩, rfl, rfl⟩

/-- For their clauses that nothing else changes the element: a read, which performs no command and writes nothing, and a NOP. -/
theorem witness_quiet_steps :
    (∃ t, step (issued [.transaction ⟨0b00001#5, 0#32⟩]) = .next t) ∧
    (issued [.transaction ⟨0b00001#5, 0#32⟩]).resets = false ∧ (issued [.transaction ⟨0b00001#5, 0#32⟩]).command? = none ∧
    fetch (issued [.transaction ⟨0b00001#5, 0#32⟩]) = .instr .rdData ∧
    (∃ t, step (issued [.transaction ⟨0b10000#5, 0#32⟩]) = .next t) ∧
    (issued [.transaction ⟨0b10000#5, 0#32⟩]).command? = some .nop := ⟨⟨_, rfl⟩, rfl, rfl, rfl, ⟨_, rfl⟩, rfl⟩

/-- For ResultReadsTheChecksumSoFar, CountReadsTheByteCountModulo and EveryStepTracksTheBytesAbsorbed. -/
theorem witness_tracks :
    State.reset.block.tracks [] ∧
    (state 0x00FFFFFF#32 1#32 0#32 0#32 false false false false).block.tracks [0xFF#8] ∧
    step { state 0x00FFFFFF#32 1#32 0#32 0#32 false false false false with pending := [.transaction ⟨0b00011#5, 0#32⟩] }
      = .next { state 0x00FFFFFF#32 1#32 0#32 0#32 false false false false with returned := [0xFF000000#32] } :=
  ⟨⟨rfl, rfl, rfl⟩, ⟨by decide +kernel, rfl, rfl⟩, rfl⟩

theorem witness_StatusReadsTheFlags : checked.inv ∧ (4 : Nat) ≤ 4 := ⟨⟨⟨fun _ => by decide, nofun⟩, nofun⟩, by decide⟩

theorem witness_ReadsAndRepeatedWritesAreIdempotent :
    Instr.rdCount.isRead = true ∧ exec .rdCount State.reset = .next { State.reset with returned := [0#32] } ∧
    exec .rdCount { State.reset with returned := [0#32] } = .next { State.reset with returned := [0#32, 0#32] } ∧
    (Transaction.mk 0b11111#5 1#32).we = true ∧ 3 ≤ (Transaction.mk 0b11111#5 1#32).idx.toNat :=
  ⟨by decide, rfl, rfl, rfl, by decide⟩

theorem witness_ByteStepIsLinearOverXor : [0x31#8, 0x32#8].length = [0x00#8, 0x80#8].length := rfl

theorem witness_EverySingleByteErrorChangesTheChecksum : 0x31#8 ≠ 0x33#8 := by decide

theorem witness_ChecksumIsThePolynomialRemainder : (0 : Nat) < 32 ∧ (31 : Nat) < 32 := by decide

/-- For ChunkFieldsLieAtTheirOffsets, GeneratorReturnsTheChunkChecksum, CheckerReportsWhetherTheChecksumMatches and
GeneratedChunksAlwaysCheck: an empty payload and one of five bytes, and two different states with the reset input released. -/
theorem witness_chunks :
    (Chunk.mk 0x49#8 0x45#8 0x4E#8 0x44#8 [] 0#32).payload.length ≤ 2 ^ 32 - 1 ∧
    (Chunk.mk 0x52#8 0x75#8 0x53#8 0x74#8 [1#8, 2#8, 3#8, 4#8, 5#8] 0#32).payload.length < 2 ^ 32 ∧
    State.reset.resetAsserted = false ∧ checked.resetAsserted = false := by decide

/-- For the same statements at the limit: the longest payload the host takes and the shortest it refuses. -/
theorem witness_payload_limit :
    (Chunk.mk 0x49#8 0x45#8 0x4E#8 0x44#8 (List.replicate (2 ^ 32 - 1) 0#8) 0#32).payload.length ≤ 2 ^ 32 - 1 ∧
    2 ^ 32 - 1 < (Chunk.mk 0x49#8 0x45#8 0x4E#8 0x44#8 (List.replicate (2 ^ 32) 0#8) 0#32).payload.length := by
  simp only [List.length_replicate]
  decide

end Sys2Proof.Tests
end

section
/-! SUPPORT. The family 10_state.md: who writes each element of the block, and the table of the window (R24 to R33). First
what a command leaves alone, then what a step does to one element, then the statements. -/

namespace Sys2Proof.Machine

/-! ### ABSORBD, field by field (41_commands.md R104) -/

@[simp] theorem Block.absorbData_S (b : Block) (n1 : BitVec 2) :
    (b.absorbData n1).S = crcRaw b.S (absorbdBytes b.DATA n1) := by rw [Block.absorbData_eq]
@[simp] theorem Block.absorbData_DATA (b : Block) (n1 : BitVec 2) : (b.absorbData n1).DATA = b.DATA := by
  rw [Block.absorbData_eq]
@[simp] theorem Block.absorbData_EXPECT (b : Block) (n1 : BitVec 2) : (b.absorbData n1).EXPECT = b.EXPECT := by
  rw [Block.absorbData_eq]
@[simp] theorem Block.absorbData_MATCH (b : Block) (n1 : BitVec 2) : (b.absorbData n1).MATCH = false := by
  rw [Block.absorbData_eq]
@[simp] theorem Block.absorbData_CHECKED (b : Block) (n1 : BitVec 2) : (b.absorbData n1).CHECKED = false := by
  rw [Block.absorbData_eq]
@[simp] theorem Block.absorbData_ILLEGAL (b : Block) (n1 : BitVec 2) : (b.absorbData n1).ILLEGAL = b.ILLEGAL := by
  rw [Block.absorbData_eq]
@[simp] theorem Block.absorbData_WRAP (b : Block) (n1 : BitVec 2) :
    (b.absorbData n1).WRAP = (b.WRAP || decide (2 ^ 32 ≤ b.COUNT.toNat + (n1.toNat + 1))) := by
  rw [Block.absorbData_eq]

/-- COUNT passes its largest value in n increments where one of them finds it there (R30). -/
theorem count_passes_last_iff (c : Word) (n : Nat) :
    2 ^ 32 ≤ c.toNat + n ↔ ∃ k : Fin n, c + BitVec.ofNat 32 k.val = 0xFFFFFFFF#32 := by
  have hc := c.isLt
  simp only [← BitVec.toNat_inj, BitVec.toNat_add, BitVec.toNat_ofNat]
  constructor
  · intro h
    exact ⟨⟨2 ^ 32 - 1 - c.toNat, by omega⟩, by dsimp only; omega⟩
  · rintro ⟨⟨k, hk⟩, h⟩
    dsimp only at h
    omega

/-! ### What a command leaves alone -/

/-- R24: no command writes DATA. -/
@[simp] theorem Block.perform_DATA (b : Block) (c : Command) : (b.perform c).DATA = b.DATA := by
  cases c <;> simp

/-- R25: no command writes EXPECT. -/
@[simp] theorem Block.perform_EXPECT (b : Block) (c : Command) : (b.perform c).EXPECT = b.EXPECT := by
  cases c <;> simp

/-- R27, R28: each Absorb clears both flags. -/
theorem Block.perform_absorbs_clears (b : Block) {c : Command} (h : c.absorbs = true) :
    (b.perform c).MATCH = false ∧ (b.perform c).CHECKED = false := by
  cases c with
  | absorb8 x => exact ⟨rfl, rfl⟩
  | absorbd n1 => simp
  | nop | init | check | illegal => cases h

/-- R29: a command that is neither an illegal word nor INIT keeps ILLEGAL. -/
theorem Block.perform_ILLEGAL_same (b : Block) {c : Command} (hi : c ≠ .illegal) (hn : c ≠ .init) :
    (b.perform c).ILLEGAL = b.ILLEGAL := by
  cases c with
  | illegal => exact absurd rfl hi
  | init => exact absurd rfl hn
  | nop | absorb8 | absorbd | check => simp

/-- R30: a command that is neither an Absorb nor INIT keeps WRAP. -/
theorem Block.perform_WRAP_same (b : Block) {c : Command} (hn : c ≠ .init) (ha : c.absorbs = false) :
    (b.perform c).WRAP = b.WRAP := by
  cases c with
  | init => exact absurd rfl hn
  | absorb8 | absorbd => cases ha
  | nop | check | illegal => rfl

/-- R30: what a command makes of S depends on S and DATA only, not on COUNT or a flag. -/
theorem Block.perform_S_congr {b b' : Block} (hS : b.S = b'.S) (hD : b.DATA = b'.DATA) (c : Command) :
    (b.perform c).S = (b'.perform c).S := by
  cases c <;> simp [hS, hD]

/-! ### What an instruction does -/

/-- R61: the write key of an index is its write row. -/
theorem decodeTransaction_writeKey (idx : WordIndex) (v : Word) :
    decodeTransaction ⟨keyOf true idx, v⟩ = writeRow idx v := by simp [decodeTransaction]

/-- R61: the read key of an index is its read row, whatever the data lines carry. -/
theorem decodeTransaction_readKey (idx : WordIndex) (v : Word) :
    decodeTransaction ⟨keyOf false idx, v⟩ = readRow idx := by simp [decodeTransaction]

/-- S after an instruction: what its command makes of it, and S as it was where there is no command. -/
theorem exec_S {i : Instr} {s t : State} (h : exec i s = .next t) :
    t.block.S = i.command?.elim s.block.S fun c => (s.block.perform c).S := by
  rcases exec_block_cases h with ⟨c, hc, hb⟩ | ⟨hc, ⟨v, -, hb⟩ | ⟨v, -, hb⟩ | ⟨-, -, hb⟩⟩ <;> simp [hc, hb]

/-- 60_exceptions.md R160: every instruction completes. -/
theorem exec_completes (i : Instr) (s : State) : ∃ t : State, exec i s = .next t := by
  cases i <;> exact ⟨_, rfl⟩

/-- R120: a command word's instruction is what the write of that word to CMD performs. -/
theorem exec_of_decode_command {w : Word} {i : Instr} (h : decode (.command w) = .ok i) (s : State) :
    exec i s = .next (s.busWrite 0#4 w) := by
  simp only [decode] at h
  simp only [State.busWrite, Block.writeIndex_cmd]
  cases hc : decodeCommand w <;> rw [hc] at h <;> cases h <;> rfl

/-- 20_memory.md R41: a read transaction is BusRead of its index. -/
theorem exec_decodeTransaction_read {t : Transaction} (h : t.we = false) (s : State) :
    exec (decodeTransaction t) s = .next (s.busRead t.idx) := by
  rw [← exec_readRow, decodeTransaction, h]
  rfl

/-- 20_memory.md R41: a write transaction is BusWrite of its index. -/
theorem exec_decodeTransaction_write {t : Transaction} (h : t.we = true) (s : State) :
    exec (decodeTransaction t) s = .next (s.busWrite t.idx t.wdata) := by
  rw [← exec_writeRow, decodeTransaction, h]
  rfl

/-- R33: from index 3 on a write is ignored. -/
theorem State.busWrite_ignored (s : State) {idx : WordIndex} (h : 3 ≤ idx.toNat) (v : Word) : s.busWrite idx v = s := by
  have h0 : idx ≠ 0#4 := by rintro rfl; exact absurd h (by decide)
  have h1 : idx ≠ 1#4 := by rintro rfl; exact absurd h (by decide)
  have h2 : idx ≠ 2#4 := by rintro rfl; exact absurd h (by decide)
  simp only [State.busWrite, State.onBlock, Block.writeIndex, if_neg h0, if_neg h1, if_neg h2]

/-! ### What a step does to the block, one lemma per kind of step -/

section
variable {s t : State} (h : step s = .next t)
include h

theorem step_block_of_resets (hr : s.resets = true) : t.block = Block.reset := by
  rcases step_block_cases h with ⟨-, -, -, hb⟩ | ⟨hn, -⟩ | ⟨hn, -⟩ | ⟨hn, -⟩ | ⟨hn, -⟩
  · exact hb
  all_goals exact absurd hr (by simp [hn])

theorem step_block_of_command {c : Command} (hc : s.command? = some c) : t.block = s.block.perform c := by
  rcases step_block_cases h with ⟨-, hn, -⟩ | ⟨-, ⟨c', hc', hb⟩, -⟩ | ⟨-, hn, -⟩ | ⟨-, hn, -⟩ | ⟨-, hn, -⟩
  case inr.inl => rw [hb, Option.some.inj (hc.symm.trans hc')]
  all_goals exact absurd hc (by simp [hn])

theorem step_block_of_wrData {v : Word} (hf : fetch s = .instr (.wrData v)) : t.block = s.block.setData v := by
  rcases step_block_cases h with
    ⟨-, -, hn, -⟩ | ⟨-, -, hn, -⟩ | ⟨-, -, v', hf', hb⟩ | ⟨-, -, v', hf', -⟩ | ⟨-, -, hn, -⟩
  case inr.inr.inl => cases hf.symm.trans hf'; exact hb
  case inr.inr.inr.inl => cases hf.symm.trans hf'
  all_goals exact absurd hf (hn _)

theorem step_block_of_wrExpect {v : Word} (hf : fetch s = .instr (.wrExpect v)) : t.block = s.block.setExpect v := by
  rcases step_block_cases h with
    ⟨-, -, hn, -⟩ | ⟨-, -, -, hn⟩ | ⟨-, -, v', hf', -⟩ | ⟨-, -, v', hf', hb⟩ | ⟨-, -, -, hn, -⟩
  case inr.inr.inr.inl => cases hf.symm.trans hf'; exact hb
  case inr.inr.inl => cases hf.symm.trans hf'
  all_goals exact absurd hf (hn _)

/-- A step that does not reset the block keeps what its command, its write of DATA or its write of EXPECT keeps. -/
theorem step_keeps {α : Type} (f : Block → α) (hr : s.resets = false)
    (hperform : ∀ c, s.command? = some c → f (s.block.perform c) = f s.block)
    (hdata : ∀ v, fetch s = .instr (.wrData v) → f (s.block.setData v) = f s.block)
    (hexpect : ∀ v, fetch s = .instr (.wrExpect v) → f (s.block.setExpect v) = f s.block) :
    f t.block = f s.block := by
  rcases step_block_cases h with
    ⟨hn, -⟩ | ⟨-, ⟨c, hc, hb⟩, -⟩ | ⟨-, -, v, hf, hb⟩ | ⟨-, -, v, hf, hb⟩ | ⟨-, -, -, -, hb⟩
  · exact absurd hn (by simp [hr])
  · rw [hb, hperform c hc]
  · rw [hb, hdata v hf]
  · rw [hb, hexpect v hf]
  · rw [hb]

end

/-! ### The statements -/

/-- Settles O33: each transaction is BusRead or BusWrite of its index, and from index 3 on a write is ignored. -/
theorem everyIndexReadsAndWritesAsTheTableSays : Obligations.EveryIndexReadsAndWritesAsTheTableSays := by
  refine ⟨fun s t hwe => exec_decodeTransaction_read hwe s, fun s t hwe => ?_⟩
  rw [exec_decodeTransaction_write hwe]
  refine ⟨fun h => ?_, fun h => by rw [h]; rfl, fun h => by rw [h]; rfl, fun h => by rw [State.busWrite_ignored s h]⟩
  rw [h]
  exact ⟨_, rfl, rfl, Block.perform_DATA .., Block.perform_EXPECT .., fun i hi => exec_of_decode_command hi s⟩

/-- Settles O36: of the kinds of step only reset and the write of DATA change DATA. -/
theorem dataIsWrittenOnlyByItsWriteAndReset : Obligations.DataIsWrittenOnlyByItsWriteAndReset := by
  refine ⟨fun v => ⟨decodeTransaction_writeKey 1#4 v, decodeTransaction_readKey 1#4 v⟩, fun s v => ⟨rfl, rfl⟩,
    fun s t h => ⟨fun hr => ?_, fun v hf => ?_, fun hr hd => ?_⟩,
    fun s n1 => ⟨_, rfl, Block.absorbData_DATA .., Block.absorbData_S ..⟩⟩
  · rw [step_block_of_resets h hr]; rfl
  · rw [step_block_of_wrData h hf, Block.setData_DATA]
  · exact step_keeps h Block.DATA hr (fun c _ => Block.perform_DATA _ c) (fun v hf => absurd hf (hd v)) (fun _ _ => rfl)

/-- Settles O37: of the kinds of step only reset and the write of EXPECT change EXPECT. -/
theorem expectIsWrittenOnlyByItsWriteAndReset : Obligations.ExpectIsWrittenOnlyByItsWriteAndReset := by
  refine ⟨fun v => ⟨decodeTransaction_writeKey 2#4 v, decodeTransaction_readKey 2#4 v⟩, fun s v => ⟨rfl, rfl⟩,
    fun s t h => ⟨fun hr => ?_, fun v hf => ?_, fun hr hx => ?_⟩, fun s => ⟨_, rfl, rfl⟩⟩
  · rw [step_block_of_resets h hr]; rfl
  · rw [step_block_of_wrExpect h hf, Block.setExpect_EXPECT]
  · exact step_keeps h Block.EXPECT hr (fun c _ => Block.perform_EXPECT _ c) (fun _ _ => rfl)
      (fun v hf => absurd hf (hx v))

/-- Settles O43, by the kinds of step; NOP and an illegal word keep both flags. -/
theorem matchAndCheckedChangeOnlyWhereTheRulesSay : Obligations.MatchAndCheckedChangeOnlyWhereTheRulesSay := by
  refine fun s t h => ⟨fun hc => ?check, fun hclear => ?clear, fun hr hquiet hx => ?keep⟩
  case check =>
    rw [step_block_of_command h hc]
    exact ⟨rfl, rfl⟩
  case clear =>
    rcases hclear with hr | hc | ⟨c, hc, ha⟩ | ⟨v, hf⟩
    · rw [step_block_of_resets h hr]; exact ⟨rfl, rfl⟩
    · rw [step_block_of_command h hc]; exact ⟨rfl, rfl⟩
    · rw [step_block_of_command h hc]; exact Block.perform_absorbs_clears _ ha
    · rw [step_block_of_wrExpect h hf]; exact ⟨rfl, rfl⟩
  case keep =>
    have quiet : ∀ c, s.command? = some c →
        (s.block.perform c).MATCH = s.block.MATCH ∧ (s.block.perform c).CHECKED = s.block.CHECKED := by
      intro c hc
      rcases hquiet c hc with rfl | rfl <;> exact ⟨rfl, rfl⟩
    exact ⟨step_keeps h Block.MATCH hr (fun c hc => (quiet c hc).1) (fun _ _ => rfl) (fun v hf => absurd hf (hx v)),
      step_keeps h Block.CHECKED hr (fun c hc => (quiet c hc).2) (fun _ _ => rfl) (fun v hf => absurd hf (hx v))⟩

/-- Settles O44, by the kinds of step; neither write touches ILLEGAL. -/
theorem illegalIsStickyUntilInitOrReset : Obligations.IllegalIsStickyUntilInitOrReset := by
  refine fun s t h => ⟨fun hc => ?set, fun hclear => ?clear, fun hi hn hr => ?keep⟩
  case set => rw [step_block_of_command h hc, Block.perform_illegal, Block.flagIllegal_ILLEGAL]
  case clear =>
    rcases hclear with hc | hr
    · rw [step_block_of_command h hc, Block.perform_init, Block.startChecksum_ILLEGAL]
    · rw [step_block_of_resets h hr]; rfl
  case keep =>
    refine step_keeps h Block.ILLEGAL hr (fun c hc => ?_) (fun _ _ => rfl) (fun _ _ => rfl)
    exact Block.perform_ILLEGAL_same _ (by rintro rfl; exact hi hc) (by rintro rfl; exact hn hc)

/-- Settles O45: the step's rule by the kinds of step, the independence of S because a command reads S and DATA only. -/
theorem wrapIsStickyAndNeverTouchesTheChecksum : Obligations.WrapIsStickyAndNeverTouchesTheChecksum := by
  constructor
  · refine fun s t h => ⟨fun x hc => ?absorb8, fun n1 hc => ?absorbd, fun hclear => ?clear, fun hr hquiet => ?keep⟩
    case absorb8 =>
      rw [step_block_of_command h hc]
      rfl
    case absorbd =>
      rw [step_block_of_command h hc, Block.perform_absorbd, Block.absorbData_WRAP]
      simp only [count_passes_last_iff]
    case clear =>
      rcases hclear with hc | hr
      · rw [step_block_of_command h hc, Block.perform_init, Block.startChecksum_WRAP]
      · rw [step_block_of_resets h hr]; rfl
    case keep =>
      refine step_keeps h Block.WRAP hr (fun c hc => ?_) (fun _ _ => rfl) (fun _ _ => rfl)
      obtain ⟨hn, ha⟩ := hquiet c hc
      exact Block.perform_WRAP_same _ hn ha
  · intro i s c w
    obtain ⟨t, ht⟩ := exec_completes i s
    obtain ⟨u, hu⟩ := exec_completes i { s with block := { s.block with COUNT := c, WRAP := w } }
    refine ⟨t, u, ht, hu, ?_⟩
    rw [exec_S ht, exec_S hu]
    cases i.command? with
    | none => rfl
    | some cmd => exact Block.perform_S_congr (b := { s.block with COUNT := c, WRAP := w }) (b' := s.block) rfl rfl cmd

end Sys2Proof.Machine
end

section
/-! SUPPORT. The family 20_memory.md: the word index a byte address of the window selects (R41), and the byte order of a
word absorbed from DATA (R44). -/

namespace Sys2Proof.Machine

/-! ### Byte addresses (R41) -/

/-- R41: word index `idx` of a window mapped at `base` is at byte address `base + 4*idx`. -/
theorem locate_wordAddress (base : Nat) (idx : WordIndex) : locate base (base + 4 * idx.toNat) 4 = .ok idx := by
  have hidx : idx.toNat < 16 := idx.isLt
  have inside : ¬(base + 4 * idx.toNat < base ∨ base + 64 ≤ base + 4 * idx.toNat) := by omega
  have offset : base + 4 * idx.toNat - base = 4 * idx.toNat := by omega
  have aligned : ¬(4 * idx.toNat % 4 ≠ 0) := by omega
  have index : 4 * idx.toNat / 4 = idx.toNat := by omega
  rw [locate, if_neg (by decide), if_neg inside, offset, if_neg aligned, index, BitVec.ofNat_toNat, BitVec.setWidth_eq]

/-- R41: with the reset input released, the access at an index's byte address is fetched as that index's transaction. -/
theorem fetch_wordAccess {s : State} {write : Bool} {idx : WordIndex} {v : Word} {rest : List HostEvent}
    (hr : s.resetAsserted = false)
    (hp : s.pending = .byteAccess write (Config.crcBase + 4 * idx.toNat) 4 v :: rest) :
    fetch s = .instr (decodeTransaction ⟨keyOf write idx, v⟩) := by
  simp only [fetch, hp, acceptByteAccess, locate_wordAddress, acceptTransaction, hr, Bool.false_eq_true, if_false]

/-- R41, R53: the step on that access runs the index's transaction and takes the access off the host's list. -/
theorem step_wordAccess {s : State} {write : Bool} {idx : WordIndex} {v : Word} {rest : List HostEvent}
    (hr : s.resetAsserted = false)
    (hp : s.pending = .byteAccess write (Config.crcBase + 4 * idx.toNat) 4 v :: rest) :
    step s = exec (decodeTransaction ⟨keyOf write idx, v⟩) { s with pending := rest } := by
  simp only [step, fetch_wordAccess hr hp, State.popEvent, hp, List.tail_cons]

/-- Settles O18: the step runs the transaction of the index, which is BusWrite or BusRead of it. -/
theorem byteAddressesSelectTheirIndex : Obligations.ByteAddressesSelectTheirIndex := by
  intro s write idx v rest hr hp
  have hstep := step_wordAccess hr hp
  refine ⟨hstep, ?_⟩
  cases write with
  | true => exact ⟨_, hstep.trans (exec_decodeTransaction_write (keyOf_we true idx v) _), fun _ => rfl, nofun⟩
  | false => exact ⟨_, hstep.trans (exec_decodeTransaction_read (keyOf_we false idx v) _), nofun, fun _ => ⟨_, rfl⟩⟩

/-! ### The bytes of a word (R44) -/

/-- R44: the big-endian word of four stream bytes gives them back in stream order: dropping the low bytes of the word leaves
the wanted byte lowest. -/
@[simp] theorem wordBytes_wordOfBytes (m0 m1 m2 m3 : Byte) : wordBytes (wordOfBytes m0 m1 m2 m3) = [m0, m1, m2, m3] := by
  simp only [wordBytes, wordOfBytes, BitVec.extractLsb'_append_eq_of_le, BitVec.extractLsb'_append_eq_right,
    BitVec.extractLsb'_eq_self, Nat.le_refl, Nat.reduceLeDiff, Nat.reduceSub]

/-- R44: ABSORBD takes the first n of the four stream bytes whose big-endian word is in DATA. -/
theorem absorbdBytes_wordOfBytes (m0 m1 m2 m3 : Byte) (n1 : BitVec 2) :
    absorbdBytes (wordOfBytes m0 m1 m2 m3) n1 = [m0, m1, m2, m3].take (n1.toNat + 1) := by
  rw [absorbdBytes, wordBytes_wordOfBytes, byteCount]

/-- Settles O32: ABSORBD runs S over the bytes of DATA, and the bytes of a big-endian word are the stream's. -/
theorem streamBytesAreAbsorbedInOrder : Obligations.StreamBytesAreAbsorbedInOrder := by
  refine ⟨fun s n1 => ⟨_, rfl, Block.absorbData_S s.block n1⟩, fun s m0 m1 m2 m3 n1 => ⟨_, _, rfl, rfl, ?_⟩⟩
  rw [← absorbdBytes_wordOfBytes]
  exact Block.absorbData_S (s.block.setData (wordOfBytes m0 m1 m2 m3)) n1

end Sys2Proof.Machine
end

section
/-! SUPPORT. The command word of 30_encoding.md: its fields (R62 to R66), what its tests decide (R67), the rows of the opcode
map (R63), and the assembler's numbers (R71). -/

namespace Sys2Proof

/-! ### The fields of a command word (R62) -/

/-- R62: a mask with every OP bit set lets a row fix OP. -/
theorem opOf_of_and_mask {w m p : Word} (hm : opOf m = 0xFF#8) (h : w &&& m = p) : opOf w = opOf p := by
  have hand : opOf (w &&& m) = opOf w &&& opOf m := BitVec.extractLsb'_and
  rw [← h, hand, hm]
  exact BitVec.and_allOnes.symm

/-- R65, R66: a word on a row whose mask leaves the low `k` bits free is the row's pattern with those bits in. -/
theorem eq_or_lowField {k : Nat} {w m p : Word} (hm : m = BitVec.allOnes 32 <<< k) (h : w &&& m = p) :
    w = p ||| (w.extractLsb' 0 k).setWidth 32 := by
  subst hm h
  ext i hi
  by_cases hk : i < k <;> simp [hk, hi, -BitVec.reduceAllOnes]

/-- R65, R66: whatever the low `k` bits hold, the word is on the row whose mask leaves them free. -/
theorem or_lowField_and_mask {k : Nat} {m p : Word} (hm : m = BitVec.allOnes 32 <<< k) (hp : p &&& m = p)
    (x : BitVec k) : (p ||| x.setWidth 32) &&& m = p := by
  have hx : x.setWidth 32 &&& m = 0#32 := by
    subst hm
    ext i hi
    by_cases hk : i < k
    · simp [hk]
    · simp [BitVec.getLsbD_of_ge x i (by omega)]
  rw [BitVec.and_or_distrib_right, hp, hx, BitVec.or_zero]

/-- R65, R66: the low field of a word put together from a pattern and a field is that field. -/
theorem extractLsb'_or_lowField {k : Nat} {p : Word} (hk : k ≤ 32) (hp : p.extractLsb' 0 k = 0#k) (x : BitVec k) :
    (p ||| x.setWidth 32).extractLsb' 0 k = x := by
  rw [BitVec.extractLsb'_or, hp, BitVec.extractLsb'_setWidth_of_le (by omega), BitVec.extractLsb'_eq_self, BitVec.zero_or]

/-! ### What the tests of R67 decide -/

@[simp] theorem decodeCommand_nop : decodeCommand 0x00000000#32 = .nop := by decide
@[simp] theorem decodeCommand_init : decodeCommand 0x01000000#32 = .init := by decide
@[simp] theorem decodeCommand_check : decodeCommand 0x04000000#32 = .check := by decide

theorem decodeCommand_of_absorb8_row {w : Word} (h : w &&& 0xFFFFFF00#32 = 0x02000000#32) :
    decodeCommand w = .absorb8 (imm8Of w) := by
  have hnop : w ≠ 0x00000000#32 := by rintro rfl; exact absurd h (by decide)
  have hinit : w ≠ 0x01000000#32 := by rintro rfl; exact absurd h (by decide)
  rw [decodeCommand, if_neg hnop, if_neg hinit, if_pos h]

/-- R63: the test for ABSORB8, which comes first, fails on this row because its OP differs. -/
theorem decodeCommand_of_absorbd_row {w : Word} (h : w &&& 0xFFFFFFFC#32 = 0x03000000#32) :
    decodeCommand w = .absorbd (n1Of w) := by
  have hnop : w ≠ 0x00000000#32 := by rintro rfl; exact absurd h (by decide)
  have hinit : w ≠ 0x01000000#32 := by rintro rfl; exact absurd h (by decide)
  have habsorb8 : w &&& 0xFFFFFF00#32 ≠ 0x02000000#32 := fun h' =>
    absurd ((opOf_of_and_mask (by decide) h).symm.trans (opOf_of_and_mask (by decide) h')) (by decide)
  rw [decodeCommand, if_neg hnop, if_neg hinit, if_neg habsorb8, if_pos h]

theorem decodeCommand_of_no_row {w : Word} (hnop : w ≠ 0x00000000#32) (hinit : w ≠ 0x01000000#32)
    (habsorb8 : w &&& 0xFFFFFF00#32 ≠ 0x02000000#32) (habsorbd : w &&& 0xFFFFFFFC#32 ≠ 0x03000000#32)
    (hcheck : w ≠ 0x04000000#32) : decodeCommand w = .illegal := by
  rw [decodeCommand, if_neg hnop, if_neg hinit, if_neg habsorb8, if_neg habsorbd, if_neg hcheck]

/-- R67: the one test a word meets and the command it gives, or that it meets none and is Illegal. -/
theorem decodeCommand_cases (w : Word) :
    (w = 0x00000000#32 ∧ decodeCommand w = .nop) ∨
    (w = 0x01000000#32 ∧ decodeCommand w = .init) ∨
    (w &&& 0xFFFFFF00#32 = 0x02000000#32 ∧ decodeCommand w = .absorb8 (imm8Of w)) ∨
    (w &&& 0xFFFFFFFC#32 = 0x03000000#32 ∧ decodeCommand w = .absorbd (n1Of w)) ∨
    (w = 0x04000000#32 ∧ decodeCommand w = .check) ∨
    ((w ≠ 0x00000000#32 ∧ w ≠ 0x01000000#32 ∧ w &&& 0xFFFFFF00#32 ≠ 0x02000000#32 ∧
      w &&& 0xFFFFFFFC#32 ≠ 0x03000000#32 ∧ w ≠ 0x04000000#32) ∧ decodeCommand w = .illegal) := by
  by_cases hnop : w = 0x00000000#32
  · exact .inl ⟨hnop, hnop ▸ decodeCommand_nop⟩
  by_cases hinit : w = 0x01000000#32
  · exact .inr (.inl ⟨hinit, hinit ▸ decodeCommand_init⟩)
  by_cases habsorb8 : w &&& 0xFFFFFF00#32 = 0x02000000#32
  · exact .inr (.inr (.inl ⟨habsorb8, decodeCommand_of_absorb8_row habsorb8⟩))
  by_cases habsorbd : w &&& 0xFFFFFFFC#32 = 0x03000000#32
  · exact .inr (.inr (.inr (.inl ⟨habsorbd, decodeCommand_of_absorbd_row habsorbd⟩)))
  by_cases hcheck : w = 0x04000000#32
  · exact .inr (.inr (.inr (.inr (.inl ⟨hcheck, hcheck ▸ decodeCommand_check⟩))))
  · exact .inr (.inr (.inr (.inr (.inr ⟨⟨hnop, hinit, habsorb8, habsorbd, hcheck⟩,
      decodeCommand_of_no_row hnop hinit habsorb8 habsorbd hcheck⟩))))

/-! ### The word of each command (R63) -/

@[simp] theorem decodeCommand_absorb8_word (x : Byte) :
    decodeCommand (0x02000000#32 ||| x.setWidth 32) = .absorb8 x := by
  rw [decodeCommand_of_absorb8_row (or_lowField_and_mask (by decide) (by decide) x), imm8Of,
    extractLsb'_or_lowField (by decide) (by decide)]

@[simp] theorem decodeCommand_absorbd_word (n1 : BitVec 2) :
    decodeCommand (0x03000000#32 ||| n1.setWidth 32) = .absorbd n1 := by
  rw [decodeCommand_of_absorbd_row (or_lowField_and_mask (by decide) (by decide) n1), n1Of,
    extractLsb'_or_lowField (by decide) (by decide)]

/-- R63: a legal word is the encoding of the instruction it is. -/
theorem encode_of_decodeCommand {w : Word} {i : Instr} (h : (decodeCommand w).instr? = some i) :
    encode i = .command w := by
  rcases decodeCommand_cases w with ⟨hw, hd⟩ | ⟨hw, hd⟩ | ⟨hw, hd⟩ | ⟨hw, hd⟩ | ⟨hw, hd⟩ | ⟨-, hd⟩
  all_goals rw [hd] at h; cases h
  · rw [hw]; rfl
  · rw [hw]; rfl
  · exact congrArg _ (eq_or_lowField (by decide) hw).symm
  · exact congrArg _ (eq_or_lowField (by decide) hw).symm
  · rw [hw]; rfl

/-- R63: a command that is an instruction has one word, the one the encoder gives. -/
theorem eq_of_encode_of_decodeCommand {w v : Word} {c : Command} {i : Instr} (hi : c.instr? = some i)
    (hv : encode i = .command v) (h : decodeCommand w = c) : w = v :=
  Code.command.inj ((encode_of_decodeCommand (h.symm ▸ hi)).symm.trans hv)

theorem decodeCommand_eq_nop_iff (w : Word) : decodeCommand w = .nop ↔ w = 0x00000000#32 :=
  ⟨eq_of_encode_of_decodeCommand rfl rfl, fun h => h ▸ decodeCommand_nop⟩

theorem decodeCommand_eq_init_iff (w : Word) : decodeCommand w = .init ↔ w = 0x01000000#32 :=
  ⟨eq_of_encode_of_decodeCommand rfl rfl, fun h => h ▸ decodeCommand_init⟩

theorem decodeCommand_eq_check_iff (w : Word) : decodeCommand w = .check ↔ w = 0x04000000#32 :=
  ⟨eq_of_encode_of_decodeCommand rfl rfl, fun h => h ▸ decodeCommand_check⟩

theorem decodeCommand_eq_absorb8_iff (w : Word) (x : Byte) :
    decodeCommand w = .absorb8 x ↔ w = 0x02000000#32 ||| x.setWidth 32 :=
  ⟨eq_of_encode_of_decodeCommand rfl rfl, fun h => h ▸ decodeCommand_absorb8_word x⟩

theorem decodeCommand_eq_absorbd_iff (w : Word) (n1 : BitVec 2) :
    decodeCommand w = .absorbd n1 ↔ w = 0x03000000#32 ||| n1.setWidth 32 :=
  ⟨eq_of_encode_of_decodeCommand rfl rfl, fun h => h ▸ decodeCommand_absorbd_word n1⟩

/-! ### The rows of the opcode map (R63) -/

/-- The OP a command row fixes: none where its mask leaves an OP bit free, or where the row is a transaction's. -/
def Row.op? : Row → Option (BitVec 8)
  | .command pattern mask => if opOf mask = 0xFF#8 then some (opOf pattern) else none
  | .transaction _ _ => none

/-- A row takes only words of the OP it fixes. -/
theorem Row.op?_of_accepts {r : Row} {o : BitVec 8} {w : Word} (ho : r.op? = some o)
    (h : r.accepts (.command w) = true) : opOf w = o := by
  cases r with
  | command pattern mask =>
    obtain ⟨hm, rfl⟩ := Option.ite_some_none_eq_some.mp ho
    exact opOf_of_and_mask hm (beq_iff_eq.mp h)
  | transaction pattern mask => cases ho

/-- R63: the five rows fix the OP values 0x00 to 0x04, in order. -/
theorem commandRows_op? : commandRows.map Row.op? = [some 0x00#8, some 0x01#8, some 0x02#8, some 0x03#8, some 0x04#8] := by
  decide

/-- R63: a command row takes only words of the OP it fixes, which is below 0x05. -/
theorem op?_of_commandRows_accepts {r : Row} (hr : r ∈ commandRows) {w : Word} (h : r.accepts (.command w) = true) :
    r.op? = some (opOf w) ∧ (opOf w).toNat < 5 := by
  have hop : r.op? ∈ commandRows.map Row.op? := List.mem_map_of_mem hr
  obtain ⟨o, ho, hlt⟩ : ∃ o, r.op? = some o ∧ o.toNat < 5 := by
    simp only [commandRows_op?, List.mem_cons, List.not_mem_nil, or_false] at hop
    rcases hop with hop | hop | hop | hop | hop <;> exact ⟨_, hop, by decide⟩
  rw [Row.op?_of_accepts ho h]
  exact ⟨ho, hlt⟩

/-- R63: the rows have distinct OP values. -/
theorem commandRows_eq_of_op? : ∀ r ∈ commandRows, ∀ r' ∈ commandRows, r.op? = r'.op? → r = r' := by decide

/-- R63: lying on a row of the opcode map is meeting one of R67's tests. -/
theorem exists_commandRow_accepts_iff (w : Word) :
    (∃ r ∈ commandRows, r.accepts (.command w) = true) ↔
      w = 0x00000000#32 ∨ w = 0x01000000#32 ∨ w &&& 0xFFFFFF00#32 = 0x02000000#32 ∨
        w &&& 0xFFFFFFFC#32 = 0x03000000#32 ∨ w = 0x04000000#32 := by
  have full : w &&& 0xFFFFFFFF#32 = w := BitVec.and_allOnes
  simp [commandRows, Row.accepts, full]

/-- R63: a word is legal exactly when it lies on a row. -/
theorem decodeCommand_ne_illegal_iff (w : Word) :
    decodeCommand w ≠ .illegal ↔ ∃ r ∈ commandRows, r.accepts (.command w) = true := by
  rw [exists_commandRow_accepts_iff]
  rcases decodeCommand_cases w with ⟨hw, hd⟩ | ⟨hw, hd⟩ | ⟨hw, hd⟩ | ⟨hw, hd⟩ | ⟨hw, hd⟩ | ⟨hw, hd⟩
  all_goals simp [hd, hw]

/-- R63, R68: the words of OP 0x05 to 0xFF lie on no row. -/
theorem decodeCommand_of_undefined_op {w : Word} (h : 5 ≤ (opOf w).toNat) : decodeCommand w = .illegal := by
  by_contra hlegal
  obtain ⟨r, hr, ha⟩ := (decodeCommand_ne_illegal_iff w).mp hlegal
  have hlt := (op?_of_commandRows_accepts hr ha).2
  omega

/-- R63: a row with a free field of `k` bits holds `2 ^ k` words. -/
theorem exists_list_of_field {k : Nat} {f : BitVec k → Word} (hf : Function.Injective f) :
    ∃ l : List Word, l.Nodup ∧ l.length = 2 ^ k ∧ ∀ w : Word, w ∈ l ↔ ∃ x, w = f x := by
  refine ⟨(List.finRange (2 ^ k)).map (f ∘ BitVec.ofFin), ?_, by simp, fun w => ?_⟩
  · exact (List.nodup_finRange _).map (hf.comp BitVec.equivFin.symm.injective)
  · simp only [List.mem_map, List.mem_finRange, true_and, Function.comp_apply]
    exact ⟨fun ⟨n, hn⟩ => ⟨_, hn.symm⟩, fun ⟨x, hx⟩ => ⟨x.toFin, hx.symm⟩⟩

theorem absorb8_word_injective : Function.Injective fun x : Byte => 0x02000000#32 ||| x.setWidth 32 := by
  intro x y h
  simpa using congrArg decodeCommand h

theorem absorbd_word_injective : Function.Injective fun n1 : BitVec 2 => 0x03000000#32 ||| n1.setWidth 32 := by
  intro x y h
  simpa using congrArg decodeCommand h

end Sys2Proof

namespace Sys2Proof.Machine

/-! ### The assembler's numbers (R71) -/

/-- R71: a number that fits a field of `k` bits is the same number in the word. -/
theorem setWidth_ofNat_of_fits {k n : Nat} (hk : k ≤ 32) (hn : n < 2 ^ k) :
    (BitVec.ofNat k n).setWidth 32 = BitVec.ofNat 32 n := by
  apply BitVec.eq_of_toNat_eq
  rw [BitVec.toNat_setWidth_of_le hk, BitVec.toNat_ofNat, BitVec.toNat_ofNat, Nat.mod_eq_of_lt hn,
    Nat.mod_eq_of_lt (hn.trans_le (Nat.pow_le_pow_right (by decide) hk))]

theorem decodeCommand_absorb8_number {k : Nat} (hk : k ≤ 255) :
    decodeCommand (0x02000000#32 ||| BitVec.ofNat 32 k) = .absorb8 (BitVec.ofNat 8 k) := by
  rw [← setWidth_ofNat_of_fits (k := 8) (n := k) (by decide) (by omega), decodeCommand_absorb8_word]

theorem decodeCommand_absorbd_number {n1 : Nat} (h : n1 < 4) :
    decodeCommand (0x03000000#32 ||| BitVec.ofNat 32 n1) = .absorbd (BitVec.ofNat 2 n1) := by
  rw [← setWidth_ofNat_of_fits (k := 2) (n := n1) (by decide) (by omega), decodeCommand_absorbd_word]

/-! ### The statements -/

/-- Settles O7, one lemma per test of the decode function. -/
theorem commandWordsDecodeByTheirTests : Obligations.CommandWordsDecodeByTheirTests := fun _ =>
  ⟨fun h => h ▸ decodeCommand_nop, fun h => h ▸ decodeCommand_init, decodeCommand_of_absorb8_row,
    decodeCommand_of_absorbd_row, fun h => h ▸ decodeCommand_check, decodeCommand_of_no_row⟩

/-- Settles O8: at most one row takes a word because each row fixes an OP of its own; a row's words are counted by its free
field. -/
theorem legalWordsLieOnExactlyOneRow : Obligations.LegalWordsLieOnExactlyOneRow := by
  refine ⟨decodeCommand_ne_illegal_iff, fun w r hr r' hr' h h' => ?unique, fun w => decodeCommand_of_undefined_op,
    decodeCommand_eq_nop_iff, decodeCommand_eq_init_iff, ?absorb8, ?absorbd, decodeCommand_eq_check_iff⟩
  case unique =>
    have hop := (op?_of_commandRows_accepts hr h).1
    have hop' := (op?_of_commandRows_accepts hr' h').1
    exact commandRows_eq_of_op? r hr r' hr' (hop.trans hop'.symm)
  case absorb8 =>
    simp only [decodeCommand_eq_absorb8_iff]
    exact exists_list_of_field absorb8_word_injective
  case absorbd =>
    simp only [decodeCommand_eq_absorbd_iff]
    exact exists_list_of_field absorbd_word_injective

/-- Settles O14: a number in range fits its field, so the word decodes to the command of that number. -/
theorem assembledCommandsAreLegalWords : Obligations.AssembledCommandsAreLegalWords := by
  refine ⟨rfl, decodeCommand_nop, rfl, decodeCommand_init, rfl, decodeCommand_check,
    fun k hk => ⟨?_, decodeCommand_absorb8_number hk⟩, fun k hk => ?_,
    fun n h1 h4 => ⟨?_, decodeCommand_absorbd_number (by omega)⟩, fun n hn => ?_⟩
  · rw [assemble, if_pos hk]
  · rw [assemble, if_neg (by omega)]
  · rw [assemble, if_pos ⟨h1, h4⟩, absorbdWord]
  · rw [assemble, if_neg (by omega)]

end Sys2Proof.Machine
end

section
/-! SUPPORT. The family 41_commands.md: a word with a reserved operand bit set is illegal (R101, R103, R104), what each
command does to the block, whole (R100 to R105), and that only INIT clears a sticky flag (R102). -/

namespace Sys2Proof

/-! ### Words with a reserved operand bit set -/

/-- R63: the field a row's mask has all set is fixed by the row's pattern. -/
theorem extractLsb'_of_and_mask {w m p : Word} {i k : Nat} (hm : m.extractLsb' i k = BitVec.allOnes k)
    (h : w &&& m = p) : w.extractLsb' i k = p.extractLsb' i k := by
  rw [← h, BitVec.extractLsb'_and, hm, BitVec.and_allOnes]

/-- R63: only the row of its own OP can take a word, so a word that row refuses is illegal. -/
theorem decodeCommand_of_own_row_refuses {r : Row} (hr : r ∈ commandRows) {w : Word} (hop : r.op? = some (opOf w))
    (hrefuses : r.accepts (.command w) ≠ true) : decodeCommand w = .illegal := by
  by_contra hlegal
  obtain ⟨r', hr', haccepts⟩ := (decodeCommand_ne_illegal_iff w).mp hlegal
  have hop' := (op?_of_commandRows_accepts hr' haccepts).1
  have heq : r = r' := commandRows_eq_of_op? r hr r' hr' (hop.trans hop'.symm)
  exact hrefuses (heq ▸ haccepts)

/-- R68: a field that the row of the word's OP fixes at 0 is reserved, and a word with a bit of it set is illegal. -/
theorem decodeCommand_of_reserved_bits {p m w : Word} (i k : Nat) (hr : Row.command p m ∈ commandRows)
    (hop : (Row.command p m).op? = some (opOf w)) (hm : m.extractLsb' i k = BitVec.allOnes k)
    (hp : p.extractLsb' i k = 0#k) (hw : w.extractLsb' i k ≠ 0#k) : decodeCommand w = .illegal :=
  decodeCommand_of_own_row_refuses hr hop fun haccepts =>
    hw ((extractLsb'_of_and_mask hm (beq_iff_eq.mp haccepts)).trans hp)

/-- R101: OP 0x00 has no operand, so its only legal word is 0. -/
theorem decodeCommand_of_nop_op {w : Word} (hop : opOf w = 0x00#8) (hw : w ≠ 0x00000000#32) :
    decodeCommand w = .illegal := by
  refine decodeCommand_of_own_row_refuses (r := .command 0x00000000#32 0xFFFFFFFF#32) (by decide) (by rw [hop]; decide) ?_
  intro haccepts
  have hmask : w &&& 0xFFFFFFFF#32 = w := BitVec.and_allOnes
  exact hw (hmask ▸ beq_iff_eq.mp haccepts)

/-- R103: bits 23:8 are reserved under OP 0x02. -/
theorem decodeCommand_of_absorb8_reserved_bits {w : Word} (hop : opOf w = 0x02#8) (hw : w.extractLsb' 8 16 ≠ 0#16) :
    decodeCommand w = .illegal :=
  decodeCommand_of_reserved_bits (p := 0x02000000#32) (m := 0xFFFFFF00#32) 8 16 (by decide) (by rw [hop]; decide)
    (by decide) (by decide) hw

/-- R104: bits 23:2 are reserved under OP 0x03. -/
theorem decodeCommand_of_absorbd_reserved_bits {w : Word} (hop : opOf w = 0x03#8) (hw : w.extractLsb' 2 22 ≠ 0#22) :
    decodeCommand w = .illegal :=
  decodeCommand_of_reserved_bits (p := 0x03000000#32) (m := 0xFFFFFFFC#32) 2 22 (by decide) (by rw [hop]; decide)
    (by decide) (by decide) hw

end Sys2Proof

namespace Sys2Proof.Machine

/-! ### What a command does to the block, whole -/

/-- R120: an instruction that performs a command changes the block by it, and nothing beside the block. -/
theorem exec_of_command {i : Instr} {c : Command} (h : i.command? = some c) (s : State) :
    exec i s = .next { s with block := s.block.perform c } := by
  cases i
  case nop | init | absorb8 | absorbd | check | wrCmd => cases h; rfl
  all_goals cases h

/-- R161: a CMD write of an illegal word sets ILLEGAL and changes nothing else. -/
theorem exec_wrCmd_illegal {w : Word} (h : decodeCommand w = .illegal) (s : State) :
    exec (.wrCmd w) s = .next { s with block := { s.block with ILLEGAL := true } } :=
  exec_of_command (i := .wrCmd w) (congrArg some h) s

/-- R102: every element after INIT. -/
theorem exec_init (s : State) :
    exec .init s = .next { s with block := {
      S := 0xFFFFFFFF#32, COUNT := 0#32, DATA := s.block.DATA, EXPECT := s.block.EXPECT,
      MATCH := false, CHECKED := false, ILLEGAL := false, WRAP := false } } :=
  exec_of_command (c := .init) rfl s

/-- R105: every element after CHECK. -/
theorem Block.compare_eq (b : Block) :
    b.compare = { b with MATCH := decide (b.S ^^^ 0xFFFFFFFF#32 = b.EXPECT), CHECKED := true } := rfl

/-- R105: a second comparison finds the same RESULT and the same EXPECT. -/
theorem Block.compare_compare (b : Block) : b.compare.compare = b.compare := rfl

/-- R100, line by line: WRAP is set where COUNT is found at its largest value. -/
theorem Block.absorb_eq_ite (b : Block) (x : Byte) :
    b.absorb x = { b with S := byteStep b.S x, COUNT := b.COUNT + 1#32, MATCH := false, CHECKED := false,
                          WRAP := if b.COUNT = 0xFFFFFFFF#32 then true else b.WRAP } := by
  have hwrap : (b.WRAP || b.COUNT == 0xFFFFFFFF#32) = if b.COUNT = 0xFFFFFFFF#32 then true else b.WRAP := by
    split <;> simp [*]
  rw [Block.absorb_eq, hwrap]

/-- R102: a command other than INIT leaves a sticky flag that is set as it is. -/
theorem Block.perform_keeps_sticky (b : Block) {c : Command} (hn : c ≠ .init) :
    (b.ILLEGAL = true → (b.perform c).ILLEGAL = true) ∧ (b.WRAP = true → (b.perform c).WRAP = true) := by
  cases c with
  | init => exact absurd rfl hn
  | nop | check => exact ⟨id, id⟩
  | illegal => exact ⟨fun _ => rfl, id⟩
  | absorb8 x => exact ⟨id, fun h => by simp [h]⟩
  | absorbd n1 => exact ⟨fun h => by simp [h], fun h => by simp [h]⟩

/-- R102: an instruction that clears a sticky flag performs INIT. -/
theorem command?_of_clears_sticky {i : Instr} {s t : State} (h : exec i s = .next t)
    (hclears : (s.block.ILLEGAL = true ∧ t.block.ILLEGAL = false) ∨ (s.block.WRAP = true ∧ t.block.WRAP = false)) :
    i.command? = some .init := by
  rcases exec_block_cases h with ⟨c, hc, hb⟩ | ⟨-, ⟨v, -, hb⟩ | ⟨v, -, hb⟩ | ⟨-, -, hb⟩⟩
  · by_contra hi
    obtain ⟨hillegal, hwrap⟩ := s.block.perform_keeps_sticky (c := c) (by rintro rfl; exact hi hc)
    rw [hb] at hclears
    rcases hclears with ⟨hset, hclear⟩ | ⟨hset, hclear⟩
    · simp [hillegal hset] at hclear
    · simp [hwrap hset] at hclear
  all_goals simp [hb] at hclears

/-! ### The statements -/

/-- Settles O23: INIT's block does not depend on S, COUNT or a flag, and no other command clears a sticky flag. -/
theorem initStartsANewChecksum : Obligations.InitStartsANewChecksum :=
  ⟨rfl, fun s => ⟨exec_init s, exec_init _⟩, fun _ _ _ => command?_of_clears_sticky⟩

/-- Settles O24: one Absorb, and a word of OP 0x02 with a reserved bit set is illegal. -/
theorem absorb8FeedsItsByte : Obligations.Absorb8FeedsItsByte :=
  ⟨fun _ => rfl, fun s x => by rw [exec_of_command rfl, Block.perform_absorb8, Block.absorb_eq],
    fun s _ hop hw => exec_wrCmd_illegal (decodeCommand_of_absorb8_reserved_bits hop hw) s⟩

/-- Settles O25: the Absorbs of DATA's top bytes taken together, and a word of OP 0x03 with a reserved bit set is illegal. -/
theorem absorbdFeedsTheTopBytesOfData : Obligations.AbsorbdFeedsTheTopBytesOfData :=
  ⟨fun _ => rfl, fun s n1 => by
      rw [exec_of_command rfl, Block.perform_absorbd, Block.absorbData_eq]; rfl,
    fun s _ hop hw => exec_wrCmd_illegal (decodeCommand_of_absorbd_reserved_bits hop hw) s⟩

/-- Settles O22: NOP leaves the block as it is, and the row of OP 0x00 takes the word 0 only. -/
theorem nopChangesNothing : Obligations.NopChangesNothing :=
  ⟨rfl, exec_of_command (c := .nop) rfl, fun _ => decodeCommand_of_nop_op⟩

/-- Settles O26: the bytes of DATA are sampled once, and each is one Absorb from the state the one before leaves. -/
theorem absorbdIsAbsorbOncePerByte : Obligations.AbsorbdIsAbsorbOncePerByte := by
  unfold Obligations.AbsorbdIsAbsorbOncePerByte
  intro after
  have after_eq : after = fun s x => { s with block := s.block.absorb x } := by
    funext s x
    rw [Block.absorb_eq_ite]
  rw [after_eq]
  exact ⟨fun s x => exec_of_command (c := .absorb8 x) rfl s, fun s =>
    ⟨exec_of_command (c := .absorbd 0#2) rfl s, exec_of_command (c := .absorbd 1#2) rfl s,
      exec_of_command (c := .absorbd 2#2) rfl s, exec_of_command (c := .absorbd 3#2) rfl s⟩⟩

/-- Settles O27: the comparison, that a second one changes nothing, and that an Absorb clears both flags. -/
theorem checkComparesAllOfTheResult : Obligations.CheckComparesAllOfTheResult := by
  refine ⟨rfl, fun s => ⟨?once, ?twice, fun x => ⟨_, exec_of_command rfl _, rfl, rfl⟩⟩, ?reset⟩
  case once => rw [exec_of_command rfl, Block.perform_check, Block.compare_eq]
  case twice => rw [← Block.compare_eq, exec_of_command rfl, Block.perform_check, Block.compare_compare]
  case reset =>
    have hmatch : decide (State.reset.block.S ^^^ 0xFFFFFFFF#32 = State.reset.block.EXPECT) = true := by decide
    rw [exec_of_command rfl, Block.perform_check, Block.compare_eq, hmatch]

end Sys2Proof.Machine
end

section
/-! SUPPORT. The family 42_register_access.md: what the write of a command word performs (R120), which rows the reserved
indices are (R132, R133), and what RESULT, COUNT and STATUS read as (R126, R128, R130). -/

namespace Sys2Proof

/-! ### The rows of the reserved indices (R132, R133) -/

/-- R51: a reserved index is none of the six mapped ones. -/
theorem ne_mapped_of_reserved {idx k : WordIndex} (h : 6 ≤ idx.toNat) (hk : k.toNat < 6) : idx ≠ k := by
  rintro rfl
  omega

theorem readRow_of_reserved {idx : WordIndex} (h : 6 ≤ idx.toNat) :
    readRow idx = if isR6R7 idx then .rdR6R7 idx else .rdR8R15 idx := by
  rw [readRow]
  iterate 6 rw [if_neg (ne_mapped_of_reserved h (by decide))]

theorem writeRow_of_reserved {idx : WordIndex} (h : 6 ≤ idx.toNat) (v : Word) :
    writeRow idx v = if isR6R7 idx then .wrR6R7 idx v else .wrR8R15 idx v := by
  rw [writeRow]
  iterate 6 rw [if_neg (ne_mapped_of_reserved h (by decide))]

end Sys2Proof

namespace Sys2Proof.Machine

/-! ### What a command word performs (R120) -/

/-- R120: the CMD write of a word and an instruction of the command the word decodes to do the same. -/
theorem exec_wrCmd_of_command {w : Word} {c : Command} {i : Instr} (hi : i.command? = some c) (h : decodeCommand w = c)
    (s : State) : exec (.wrCmd w) s = exec i s := by
  have hw : (Instr.wrCmd w).command? = some c := congrArg some h
  rw [exec_of_command hw, exec_of_command hi]

/-! ### RESULT and COUNT (R126, R128) -/

theorem exec_rdResult (s : State) :
    exec .rdResult s = .next { s with returned := s.returned ++ [s.block.result] } := rfl

/-- R126: the start value of S is what the final XOR takes to 0. -/
@[simp] theorem Block.startChecksum_result (b : Block) : b.startChecksum.result = 0#32 :=
  BitVec.xor_self

theorem Block.tracks.result_eq {b : Block} {m : List Byte} (h : b.tracks m) : b.result = crc32 m := by
  obtain ⟨hS, -, -⟩ := h
  rw [Block.result, hS, crc32]

theorem Block.tracks.toNat_COUNT {b : Block} {m : List Byte} (h : b.tracks m) :
    b.COUNT.toNat = m.length % 2 ^ 32 := by
  obtain ⟨-, hcount, -⟩ := h
  rw [hcount, BitVec.toNat_ofNat]

theorem Block.tracks.WRAP_iff {b : Block} {m : List Byte} (h : b.tracks m) :
    b.WRAP = true ↔ 1 ≤ m.length / 2 ^ 32 := by
  obtain ⟨-, -, hwrap⟩ := h
  rw [hwrap, decide_eq_true_iff, Nat.one_le_div_iff (by decide)]

/-! ### STATUS, bit by bit (R130) -/

/-- R26: STATUS is built by putting one flag after the other below 28 zeros. -/
theorem Block.status_eq_concat (b : Block) :
    b.status = ((((0#28).concat b.WRAP).concat b.ILLEGAL).concat b.CHECKED).concat b.MATCH := rfl

theorem Block.getLsbD_status (b : Block) :
    b.status.getLsbD 0 = b.MATCH ∧ b.status.getLsbD 1 = b.CHECKED ∧ b.status.getLsbD 2 = b.ILLEGAL ∧
      b.status.getLsbD 3 = b.WRAP := by
  simp [Block.status_eq_concat]

/-- R31: the bits above the four flags are hardwired to 0. -/
theorem Block.getLsbD_status_high (b : Block) {j : Nat} (h : 4 ≤ j) : b.status.getLsbD j = false := by
  obtain ⟨k, rfl⟩ := Nat.exists_eq_add_of_le' h
  simp only [Block.status_eq_concat, BitVec.getLsbD_concat_succ, BitVec.getLsbD_zero]

/-- R32: a coherent block's STATUS is no value with MATCH = 1 and CHECKED = 0. -/
theorem Block.coherent.status_ne {b : Block} (h : b.coherent) {w : Word} (hmatch : w.getLsbD 0 = true)
    (hchecked : w.getLsbD 1 = false) : b.status ≠ w := by
  rintro rfl
  obtain ⟨hm, hc, -, -⟩ := b.getLsbD_status
  obtain ⟨-, hunchecked⟩ := h
  have hstale : b.MATCH = false := hunchecked (hc.symm.trans hchecked)
  exact absurd (hm.symm.trans hmatch) (by simp [hstale])

/-! ### The statements -/

/-- Settles O38: after INIT, S is its start value, and where the bytes so far are known RESULT is their checksum. -/
theorem resultReadsTheChecksumSoFar : Obligations.ResultReadsTheChecksumSoFar := by
  refine ⟨decodeTransaction_readKey 3#4, exec_rdResult, exec_rdResult State.reset,
    fun s => ⟨_, exec_of_command (c := .init) rfl s, ?init⟩, fun s m htracks => ?soFar⟩
  case init => rw [exec_rdResult, Block.perform_init, Block.startChecksum_result]
  case soFar => rw [exec_rdResult, htracks.result_eq]

/-- Settles O39: COUNT is the remainder of the true count by 2^32, and WRAP says that the quotient is not 0. -/
theorem countReadsTheByteCountModulo : Obligations.CountReadsTheByteCountModulo := by
  refine ⟨decodeTransaction_readKey 4#4, fun s => rfl, fun s m htracks => ⟨s.block.COUNT, rfl, ?_, htracks.WRAP_iff⟩⟩
  rw [htracks.toNat_COUNT]
  exact Nat.mod_add_div m.length (2 ^ 32)

/-- Settles O40: the bits of STATUS are the flags, and each of the four values has bit 0 set and bit 1 clear. -/
theorem statusReadsTheFlags : Obligations.StatusReadsTheFlags := by
  refine ⟨decodeTransaction_readKey 5#4, fun s => ?_⟩
  obtain ⟨hmatch, hchecked, hillegal, hwrap⟩ := s.block.getLsbD_status
  refine ⟨s.block.status, rfl, hmatch, hchecked, hillegal, hwrap, fun j => s.block.getLsbD_status_high, fun hinv => ?_⟩
  obtain ⟨hcoherent, -⟩ := hinv
  refine ⟨?_, ?_, ?_, ?_⟩
  all_goals exact hcoherent.status_ne (by decide) (by decide)

/-- Settles O29: the write performs the command its word decodes to, and so does the command's own instruction. -/
theorem writingCmdPerformsTheCommand : Obligations.WritingCmdPerformsTheCommand := by
  refine ⟨decodeTransaction_writeKey 0#4, fun s w => ⟨?nop, ?init, fun x => ?absorb8, fun n1 => ?absorbd,
    ?check, fun h => exec_wrCmd_illegal h s, exec_completes _ s⟩⟩
  all_goals exact fun h => exec_wrCmd_of_command rfl h s

/-- Settles O34: the read of CMD is the row of index 0, and from index 6 on only the two reserved rows are left. -/
theorem cmdAndReservedIndicesReadZero : Obligations.CmdAndReservedIndicesReadZero := by
  refine ⟨decodeTransaction_readKey 0#4, fun s => rfl, fun idx v h => ⟨_, decodeTransaction_readKey idx v, ?_⟩,
    fun s idx => ⟨rfl, rfl⟩⟩
  rw [readRow_of_reserved h]
  split
  · exact .inl rfl
  · exact .inr rfl

/-- Settles O35: a write of an index from 3 on is ignored, and from index 6 on only the two reserved rows are left. -/
theorem readOnlyAndReservedWritesAreIgnored : Obligations.ReadOnlyAndReservedWritesAreIgnored := by
  refine ⟨fun v => ⟨decodeTransaction_writeKey 3#4 v, decodeTransaction_writeKey 4#4 v,
      decodeTransaction_writeKey 5#4 v⟩,
    fun idx v h => ?_, fun s idx v => ⟨rfl, rfl, rfl, rfl, rfl⟩⟩
  have hrow : decodeTransaction ⟨1#1 ++ idx, v⟩ = writeRow idx v := decodeTransaction_writeKey idx v
  rw [hrow, writeRow_of_reserved h]
  split
  · exact .inl rfl
  · exact .inr rfl

end Sys2Proof.Machine
end

section
/-! SUPPORT. The family 43_chunk_framing.md: what is left of the buffer from each field's offset on (R141), which every field
is read off, then the statement. -/

namespace Sys2Proof.Machine

/-! ### The big-endian fields of a buffer -/

/-- R44, R46: the bytes of a word, taken most significant first, are that word again. -/
theorem wordOfBytes_extractLsb' (w : Word) :
    wordOfBytes (w.extractLsb' 24 8) (w.extractLsb' 16 8) (w.extractLsb' 8 8) (w.extractLsb' 0 8) = w := by
  have hjoin (start len len' : Nat) :
      w.extractLsb' (start + len) len' ++ w.extractLsb' start len = w.extractLsb' start (len' + len) :=
    BitVec.extractLsb'_append_extractLsb'_eq_extractLsb' rfl
  rw [wordOfBytes, hjoin 16 8 8, hjoin 8 8 16, hjoin 0 8 24, BitVec.extractLsb'_eq_self]

@[simp] theorem length_wordBytes (w : Word) : (wordBytes w).length = 4 := rfl

/-- An element of a buffer is found at its place in what is left of the buffer from an earlier offset on. -/
theorem getD_of_drop {m rest : List Byte} {i : Nat} (h : m.drop i = rest) (k : Nat) :
    m.getD (i + k) 0#8 = rest.getD k 0#8 := by
  simp only [← h, List.getD_eq_getElem?_getD, List.getElem?_drop]

/-- A buffer that from an offset on begins with the bytes of a word holds that word there. -/
theorem wordAt_of_drop {m rest : List Byte} {i : Nat} {w : Word} (h : m.drop i = wordBytes w ++ rest) :
    wordAt m i = w := by
  have hbyte : ∀ k : Nat, m.getD (i + k) 0#8 = (wordBytes w ++ rest).getD k 0#8 := getD_of_drop h
  calc wordAt m i
      = wordOfBytes (m.getD (i + 0) 0#8) (m.getD (i + 1) 0#8) (m.getD (i + 2) 0#8) (m.getD (i + 3) 0#8) := rfl
    _ = wordOfBytes (w.extractLsb' 24 8) (w.extractLsb' 16 8) (w.extractLsb' 8 8) (w.extractLsb' 0 8) := by
        rw [hbyte, hbyte, hbyte, hbyte]; rfl
    _ = w := wordOfBytes_extractLsb' w

/-! ### What is left of a buffer from each field of its first chunk on -/

/-- R141: twelve bytes beside the payload. -/
@[simp] theorem Chunk.length_bytes (c : Chunk) : c.bytes.length = 12 + c.payload.length := by
  simp only [Chunk.bytes, Chunk.covered, List.length_append, length_wordBytes, List.length_cons, List.length_nil]
  omega

/-- R141: Length lies at offset 0. -/
theorem Chunk.drop_zero_bytes (c : Chunk) (rest : List Byte) : (c.bytes ++ rest).drop 0 =
    wordBytes (BitVec.ofNat 32 c.payload.length) ++ (c.covered ++ (wordBytes c.checksum ++ rest)) := by
  simp only [List.drop_zero, Chunk.bytes, List.append_assoc]

/-- R141: the type bytes lie at offset 4. -/
theorem Chunk.drop_four_bytes (c : Chunk) (rest : List Byte) : (c.bytes ++ rest).drop 4 =
    [c.t0, c.t1, c.t2, c.t3] ++ (c.payload ++ (wordBytes c.checksum ++ rest)) := by
  simp only [Chunk.bytes, Chunk.covered, List.append_assoc]
  exact List.drop_left' (length_wordBytes _)

/-- R141: the payload lies at offset 8. -/
theorem Chunk.drop_eight_bytes (c : Chunk) (rest : List Byte) : (c.bytes ++ rest).drop 8 =
    c.payload ++ (wordBytes c.checksum ++ rest) := by
  rw [show 8 = 4 + 4 from rfl, ← List.drop_drop, c.drop_four_bytes]
  rfl

/-- R141: the payload's bytes, whatever their number. -/
theorem Chunk.take_payload (c : Chunk) (rest : List Byte) :
    ((c.bytes ++ rest).drop 8).take c.payload.length = c.payload := by
  rw [c.drop_eight_bytes, List.take_left]

/-- R141, R147: the checksum lies right after the payload. -/
theorem Chunk.drop_payload_bytes (c : Chunk) (rest : List Byte) :
    (c.bytes ++ rest).drop (8 + c.payload.length) = wordBytes c.checksum ++ rest := by
  rw [← List.drop_drop, c.drop_eight_bytes, List.drop_left]

/-! ### The chunk at the head of a buffer -/

/-- R141, R151: Length is read back where the payload is within the limit. -/
theorem Chunk.toNat_wordAt_zero {c : Chunk} (h : c.payload.length < 2 ^ 32) (rest : List Byte) :
    (wordAt (c.bytes ++ rest) 0).toNat = c.payload.length := by
  rw [wordAt_of_drop (c.drop_zero_bytes rest), BitVec.toNat_ofNat, Nat.mod_eq_of_lt h]

/-- R141, R147: the chunk is read back, whatever follows it. -/
theorem chunkAt_bytes {c : Chunk} (h : c.payload.length < 2 ^ 32) (rest : List Byte) :
    chunkAt (c.bytes ++ rest) = c := by
  have htype : ∀ k : Nat, (c.bytes ++ rest).getD (4 + k) 0#8 =
      ([c.t0, c.t1, c.t2, c.t3] ++ (c.payload ++ (wordBytes c.checksum ++ rest))).getD k 0#8 :=
    getD_of_drop (c.drop_four_bytes rest)
  have hchecksum : wordAt (c.bytes ++ rest) (8 + c.payload.length) = c.checksum :=
    wordAt_of_drop (c.drop_payload_bytes rest)
  rw [chunkAt, Chunk.toNat_wordAt_zero h, c.take_payload, hchecksum, htype 0, htype 1, htype 2, htype 3]
  rfl

/-! ### The statement -/

/-- Settles O59: each field is what the buffer left from its offset on begins with. -/
theorem chunkFieldsLieAtTheirOffsets : Obligations.ChunkFieldsLieAtTheirOffsets := by
  refine fun c rest h => ⟨c.length_bytes, chunkAt_bytes h rest, Chunk.toNat_wordAt_zero h rest,
    ?type, c.take_payload rest, ?checksum⟩
  case type => rw [c.drop_four_bytes]; rfl
  case checksum => rw [c.drop_payload_bytes]; rfl

end Sys2Proof.Machine
end

section
/-! SUPPORT. The family 60_exceptions.md: what an instruction can do to the whole state, beside the block as well (R160), then
the statements. -/

namespace Sys2Proof.Machine

/-! ### A read returns one word, and every other instruction acts on the block alone (R160) -/

/-- R41: a read, whatever its index, is a transaction with WE = 0. -/
theorem isRead_of_encode_busRead {i : Instr} {idx : WordIndex} (h : encode i = .transaction (busRead idx)) :
    i.isRead = true := by
  simp only [Instr.isRead, h, busRead_we, Bool.not_false]

theorem isRead_of_encode_busWrite {i : Instr} {idx : WordIndex} {v : Word}
    (h : encode i = .transaction (busWrite idx v)) : i.isRead = false := by
  simp only [Instr.isRead, h, busWrite_we, Bool.not_true]

/-- R60: a command word reaches the block in a write. -/
theorem isRead_of_encode_command {i : Instr} {w : Word} (h : encode i = .command w) : i.isRead = false := by
  simp only [Instr.isRead, h]

/-- R160: a read hands one word to the host and changes nothing else; any other instruction changes at most the block. -/
theorem exec_cases (i : Instr) (s : State) :
    (i.isRead = true ∧ ∃ v : Word, exec i s = .next (s.returnWord v)) ∨
    (i.isRead = false ∧ ∃ b : Block, exec i s = .next { s with block := b }) := by
  cases i
  case nop | init | absorb8 | absorbd | check => exact .inr ⟨isRead_of_encode_command rfl, _, rfl⟩
  case rdCmd | rdData | rdExpect | rdResult | rdCount | rdStatus | rdR6R7 | rdR8R15 =>
    exact .inl ⟨isRead_of_encode_busRead rfl, _, rfl⟩
  all_goals exact .inr ⟨isRead_of_encode_busWrite rfl, _, rfl⟩

/-! ### The statements -/

/-- Settles O20: a read appends its word, any other instruction acts on the block alone, and Fault has no member. -/
theorem everyInstructionCompletes : Obligations.EveryInstructionCompletes := by
  refine ⟨fun i s => ?_, nofun⟩
  rcases exec_cases i s with ⟨hread, v, h⟩ | ⟨hwrite, b, h⟩
  · exact ⟨_, h, fun _ => ⟨v, rfl⟩, by simp [hread], rfl, rfl⟩
  · exact ⟨_, h, by simp [hwrite], fun _ => rfl, rfl, rfl⟩

/-- Settles O28: an illegal word performs the command that sets ILLEGAL, and 0x02000100 is illegal by its bit 8, which is
reserved under OP 0x02. -/
theorem illegalWordsSetOnlyIllegal : Obligations.IllegalWordsSetOnlyIllegal :=
  ⟨fun s _ h => exec_wrCmd_illegal h s,
    exec_wrCmd_illegal (decodeCommand_of_absorb8_reserved_bits (by decide) (by decide))⟩

end Sys2Proof.Machine
end

section
/-! SUPPORT. The family 70_reset_and_hazards.md: the step on a level of the reset input, and the step on a transaction the
host issues with reset released, each with the event taken off the host's list; then the statement (R180). -/

namespace Sys2Proof.Machine

/-- R182: the step on an event of the reset input drives the input. -/
theorem step_resetLine {s : State} {a : Bool} {rest : List HostEvent} (h : s.pending = .resetLine a :: rest) :
    step s = .next (s.popEvent.driveReset a) := by
  simp only [step, fetch_resetLine h]

/-- R11, R53: with the reset input released, the step on a transaction performs it whole, on the state as it stands. -/
theorem step_transaction {s : State} {t : Transaction} {rest : List HostEvent} (h : s.pending = .transaction t :: rest)
    (hr : s.resetAsserted = false) : step s = exec (decodeTransaction t) { s with pending := rest } := by
  simp only [step, fetch_transaction h hr, State.popEvent, h, List.tail_cons]

/-- Settles O2: the release leaves the reset block, with the input low and the transaction next. -/
theorem resetEventSetsEveryElement : Obligations.ResetEventSetsEveryElement := by
  intro s t rest h
  let u := s.popEvent.driveReset true
  let v := u.popEvent.driveReset false
  have hu : u.pending = .resetLine false :: .transaction t :: rest := by simp [u, h]
  have hv : v.pending = .transaction t :: rest := by simp [v, hu]
  have hblock : v.block = Block.reset := State.driveReset_block_reset rfl
  have hreleased : v.resetAsserted = false := State.driveReset_resetAsserted _ _
  exact ⟨u, v, step_resetLine h, step_resetLine hu, hblock, hv, step_transaction hv hreleased⟩

end Sys2Proof.Machine
end

section
/-! SUPPORT. The family other, the step: what it can do beside the block, the invariant of R32, the bytes tracked since the
last INIT or reset (R85), and the small whole-machine rules; each statement follows its lemmas. -/

namespace Sys2Proof.Machine

/-! ### The invariant (R32) -/

theorem Block.reset_coherent : Block.reset.coherent := ⟨nofun, fun _ => rfl⟩

/-- R32: a block with both check flags cleared is coherent. -/
theorem Block.coherent_of_cleared {b : Block} (hmatch : b.MATCH = false) (hchecked : b.CHECKED = false) : b.coherent :=
  ⟨fun h => absurd h (by simp [hchecked]), fun _ => hmatch⟩

/-- R32: a comparison makes the flags say what they should, an Absorb or INIT clears both, and the other commands touch
neither the flags nor what they compare. -/
theorem Block.coherent.perform {b : Block} (h : b.coherent) (c : Command) : (b.perform c).coherent := by
  cases c with
  | nop | illegal => exact h
  | init => exact coherent_of_cleared rfl rfl
  | absorb8 x => exact coherent_of_cleared rfl rfl
  | absorbd n1 => exact coherent_of_cleared (by simp) (by simp)
  | check => exact ⟨fun _ => rfl, nofun⟩

theorem step_keeps_coherent {s t : State} (hs : s.block.coherent) (h : step s = .next t) : t.block.coherent := by
  rcases step_block_cases h with
    ⟨-, -, -, hb⟩ | ⟨-, ⟨c, -, hb⟩, -⟩ | ⟨-, -, v, -, hb⟩ | ⟨-, -, v, -, hb⟩ | ⟨-, -, -, -, hb⟩
  all_goals rw [hb]
  · exact Block.reset_coherent
  · exact hs.perform c
  · exact hs
  · exact Block.coherent_of_cleared rfl rfl
  · exact hs

/-- R182: while reset is asserted no instruction reaches the block. -/
theorem acceptTransaction_instr {a : Bool} {t : Transaction} {i : Instr} (h : acceptTransaction a t = .instr i) :
    a = false := by
  cases a with
  | false => rfl
  | true => cases h

theorem fetch_instr_released {s : State} {i : Instr} (h : fetch s = .instr i) : s.resetAsserted = false := by
  unfold fetch at h
  split at h
  · cases h
  · exact acceptTransaction_instr h
  · unfold acceptByteAccess at h
    split at h
    · cases h
    · exact acceptTransaction_instr h
  · cases h

/-- R160: no instruction drives the reset input. -/
theorem exec_keeps_resetAsserted {i : Instr} {s t : State} (h : exec i s = .next t) :
    t.resetAsserted = s.resetAsserted := by
  rcases exec_cases i s with ⟨-, v, he⟩ | ⟨-, b, he⟩ <;> cases he.symm.trans h <;> rfl

/-- A step after which reset is asserted leaves the reset block: it is the step that asserted it, or an idle one. -/
theorem step_asserted_block {s t : State} (hs : s.resetAsserted = true → s.block = Block.reset)
    (h : step s = .next t) (ht : t.resetAsserted = true) : t.block = Block.reset := by
  rcases step_cases h with ⟨-, rfl⟩ | ⟨a, -, rfl⟩ | ⟨i, hf, he⟩
  · exact hs ht
  · rw [State.driveReset_resetAsserted] at ht
    exact State.driveReset_block_reset (by rw [ht, Bool.true_or])
  · rw [exec_keeps_resetAsserted he, State.popEvent_resetAsserted, fetch_instr_released hf] at ht
    cases ht

/-- Settles O5: the flags by the kinds of step, the reset block because no instruction runs while reset is asserted. -/
theorem everyStepKeepsTheCheckFlagsCoherent : Obligations.EveryStepKeepsTheCheckFlagsCoherent :=
  fun _ _ ⟨hcoherent, hreset⟩ h => ⟨step_keeps_coherent hcoherent h, step_asserted_block hreset h⟩

/-- Settles O4: the flags are 0 at reset, and the reset input is released. -/
theorem checkFlagsAreCoherentAtReset : Obligations.CheckFlagsAreCoherentAtReset :=
  ⟨Block.reset_coherent, nofun⟩

/-! ### The bytes absorbed since the last INIT or reset (R85) -/

theorem Block.reset_tracks : Block.reset.tracks [] := ⟨rfl, rfl, rfl⟩

/-- R102: INIT starts the bytes afresh. -/
theorem Block.startChecksum_tracks (b : Block) : b.startChecksum.tracks [] := ⟨rfl, rfl, rfl⟩

/-- R23, R30, R85: COUNT's remainder reaches 2^32 by the new bytes, or the number before them had passed it, exactly where
the whole number passes it. -/
theorem Block.tracks.absorbAll {b : Block} {m : List Byte} (h : b.tracks m) (l : List Byte) :
    (b.absorbAll l).tracks (m ++ l) := by
  have hcount := h.toNat_COUNT
  obtain ⟨hS, hC, hW⟩ := h
  rw [Block.absorbAll_eq]
  refine ⟨?_, ?_, ?_⟩
  · rw [crcRaw_append, hS]
  · rw [hC, List.length_append, BitVec.ofNat_add]
  · rw [hW, hcount, ← Bool.decide_or, List.length_append, decide_eq_decide]
    omega

/-- R85: S, COUNT and WRAP say what was absorbed, whatever the other elements hold. -/
theorem Block.tracks.congr {b b' : Block} {m : List Byte} (h : b.tracks m) (hS : b'.S = b.S)
    (hC : b'.COUNT = b.COUNT) (hW : b'.WRAP = b.WRAP) : b'.tracks m := by
  rw [Block.tracks, hS, hC, hW]
  exact h

/-- R85: INIT forgets the bytes, ABSORB8 and ABSORBD add theirs, and every other instruction keeps them. -/
theorem Block.tracks.exec {i : Instr} {s t : State} {m : List Byte} (hs : s.block.tracks m) (h : exec i s = .next t) :
    t.block.tracks (absorbedAfter s.block m i) := by
  unfold absorbedAfter
  rcases exec_block_cases h with ⟨c, hc, hb⟩ | ⟨hc, ⟨v, -, hb⟩ | ⟨v, -, hb⟩ | ⟨-, -, hb⟩⟩ <;> rw [hc, hb]
  · cases c with
    | nop => exact hs
    | init => exact Block.startChecksum_tracks _
    | absorb8 x => exact hs.absorbAll [x]
    | absorbd n1 => exact hs.absorbAll _
    | check => exact hs.congr rfl rfl rfl
    | illegal => exact hs.congr rfl rfl rfl
  · exact hs.congr rfl rfl rfl
  · exact hs.congr rfl rfl rfl
  · exact hs

/-- Settles O53, by what the step fetched. -/
theorem everyStepTracksTheBytesAbsorbed : Obligations.EveryStepTracksTheBytesAbsorbed := by
  intro s t m hs h
  unfold State.absorbedAfterStep
  rcases step_cases h with ⟨hf, rfl⟩ | ⟨a, hf, rfl⟩ | ⟨i, hf, he⟩ <;> rw [hf]
  · exact hs
  · cases ha : (a || s.resetAsserted)
    · rw [State.driveReset_block_same (s := s.popEvent) ha]
      simpa [ha] using hs
    · rw [State.driveReset_block_reset (s := s.popEvent) ha]
      simpa [ha] using Block.reset_tracks
  · exact Block.tracks.exec (s := s.popEvent) hs he

/-- Settles O54: S, COUNT and WRAP have their start values. -/
theorem resetTracksNoBytes : Obligations.ResetTracksNoBytes := Block.reset_tracks

/-! ### Who changes S and COUNT (R21, R23) -/

@[simp] theorem Block.absorbData_COUNT (b : Block) (n1 : BitVec 2) :
    (b.absorbData n1).COUNT = b.COUNT + BitVec.ofNat 32 (n1.toNat + 1) := by rw [Block.absorbData_eq]

/-- R21, R23: a command that is neither an Absorb nor INIT keeps S and COUNT. -/
theorem Block.perform_S_COUNT_same (b : Block) {c : Command} (hn : c ≠ .init) (ha : c.absorbs = false) :
    (b.perform c).S = b.S ∧ (b.perform c).COUNT = b.COUNT := by
  cases c with
  | init => exact absurd rfl hn
  | absorb8 | absorbd => cases ha
  | nop | check | illegal => exact ⟨rfl, rfl⟩

/-- Settles O42, by the kinds of step; neither write touches S or COUNT. -/
theorem checksumAndCountChangeOnlyByInitAbsorbAndReset : Obligations.ChecksumAndCountChangeOnlyByInitAbsorbAndReset := by
  refine fun s t h => ⟨fun hr => ?reset, fun hc => ?init, fun x hc => ?absorb8, fun n1 hc => ?absorbd,
    fun hr hquiet => ?keep⟩
  case reset => rw [step_block_of_resets h hr]; exact ⟨rfl, rfl⟩
  case init => rw [step_block_of_command h hc]; exact ⟨rfl, rfl⟩
  case absorb8 => rw [step_block_of_command h hc]; exact ⟨rfl, rfl⟩
  case absorbd =>
    rw [step_block_of_command h hc]
    exact ⟨Block.absorbData_S _ _, Block.absorbData_COUNT _ _⟩
  case keep =>
    have quiet : ∀ c, s.command? = some c →
        (s.block.perform c).S = s.block.S ∧ (s.block.perform c).COUNT = s.block.COUNT := by
      intro c hc
      obtain ⟨hn, ha⟩ := hquiet c hc
      exact s.block.perform_S_COUNT_same hn ha
    exact ⟨step_keeps h Block.S hr (fun c hc => (quiet c hc).1) (fun _ _ => rfl) (fun _ _ => rfl),
      step_keeps h Block.COUNT hr (fun c hc => (quiet c hc).2) (fun _ _ => rfl) (fun _ _ => rfl)⟩

/-! ### The reset input (R181, R182) -/

/-- Settles O30: INIT's block has the two elements kept, and the reset block has both 0. -/
theorem initIsResetButForDataAndExpect : Obligations.InitIsResetButForDataAndExpect := by
  intro s
  refine ⟨_, exec_init s, rfl, fun h => ⟨congrArg Block.DATA h, congrArg Block.EXPECT h⟩, fun ⟨hdata, hexpect⟩ => ?_⟩
  rw [hdata, hexpect]
  rfl

/-- Settles O1: every value is read off the reset state. -/
theorem resetGivesEveryElementItsValue : Obligations.ResetGivesEveryElementItsValue := ⟨rfl, rfl, rfl, rfl⟩

/-- R182: while reset is asserted every byte access is refused, by its own refusal or by reset's. -/
theorem acceptByteAccess_asserted (write : Bool) (addr width : Nat) (v : Word) :
    ∃ r, acceptByteAccess true write addr width v = .refused r := by
  unfold acceptByteAccess
  split
  · exact ⟨_, rfl⟩
  · exact ⟨_, rfl⟩

theorem step_refused {s : State} {r : Refusal} (h : fetch s = .refused r) : step s = .refused r := by
  simp only [step, h]

/-- Settles O3: the fetch refuses, and the release leaves the reset block. -/
theorem nothingIsAcceptedWhileResetIsAsserted : Obligations.NothingIsAcceptedWhileResetIsAsserted := by
  refine ⟨fun s t rest hr hp => ?transaction, fun s write addr width v rest hr hp => ?byteAccess,
    fun s rest hr hp => ?release, fun s rest hp => ?assertRelease⟩
  case transaction => exact step_refused (by simp [fetch, hp, acceptTransaction, hr])
  case byteAccess =>
    obtain ⟨r, h⟩ := acceptByteAccess_asserted write addr width v
    exact ⟨r, step_refused (by simp only [fetch, hp, hr, h])⟩
  case release =>
    exact ⟨_, step_resetLine hp, State.driveReset_resetAsserted _ _, by simp [hp],
      State.driveReset_block_reset (by simp [hr])⟩
  case assertRelease =>
    have hp' : (s.popEvent.driveReset true).pending = .resetLine false :: rest := by simp [hp]
    refine ⟨_, _, step_resetLine hp, rfl, step_resetLine hp', rfl, by simp [hp], ?_⟩
    rw [State.driveReset_block_reset rfl]
    rfl

/-! ### What a step runs (R11, R53, R173) -/

/-- The transaction that carries a code that decodes runs as the instruction it decodes to (R60, R120). -/
theorem exec_transactionOf {c : Code} {i : Instr} (h : decode c = .ok i) (s : State) :
    exec (decodeTransaction c.transactionOf) s = exec i s := by
  cases c with
  | command w => rw [exec_of_decode_command h, Code.transactionOf, decodeTransaction_busWrite, exec_writeRow]
  | transaction t => cases h; rfl

/-- Settles O15: a command word written to CMD is carried by the transaction of key {1, CMD}. -/
theorem stepRunsTheDecodedInstruction : Obligations.StepRunsTheDecodedInstruction := by
  refine ⟨fun s t rest hr hp => step_transaction hp hr, fun s w i rest hr hp hd => ?_⟩
  have hcarried : (⟨0b10000#5, w⟩ : Transaction) = (Code.command w).transactionOf := rfl
  rw [step_transaction hp hr, hcarried, exec_transactionOf hd]

/-- A table word that the decoder reads is a code that decodes. -/
theorem decodeTableWord_some {nbits w : Nat} {i : Instr} (h : decodeTableWord nbits w = some i) :
    ∃ c, tableCode nbits w = some c ∧ decode c = .ok i := by
  unfold decodeTableWord at h
  split at h
  · rename_i c hc
    refine ⟨c, hc, ?_⟩
    split at h
    · rename_i j hj
      cases h
      exact hj
    · cases h
  · cases h

/-- Settles O16: the placed transaction is fetched next, with reset released. -/
theorem tableWordRunsAsTheNextStep : Obligations.TableWordRunsAsTheNextStep := by
  intro s nbits w i h
  obtain ⟨c, hc, hd⟩ := decodeTableWord_some h
  have hplaced : s.withFetchWord nbits w = s.issueFirst c.transactionOf := by simp only [State.withFetchWord, hc]
  rw [hplaced, step_transaction (State.issueFirst_pending ..) (State.issueFirst_resetAsserted ..), exec_transactionOf hd]
  rfl

theorem step_idle {s : State} (h : s.pending = []) : step s = .next s := by simp only [step, fetch_idle h]

/-- Settles O17, by induction on the number of steps. -/
theorem idleBlockKeepsItsState : Obligations.IdleBlockKeepsItsState := by
  intro k s h
  induction k with
  | zero => rfl
  | succ k ih => exact (run_succ (step_idle h) k).trans ih

/-- R43: an access of the window that is not 32 bits wide, or not aligned, is refused as such. -/
theorem locate_refuses {base addr width : Nat} (hlow : base ≤ addr) (hhigh : addr < base + 64)
    (h : (addr - base) % 4 ≠ 0 ∨ width ≠ 4) :
    locate base addr width = .error .misalignedAccess ∨ locate base addr width = .error .accessNot32Bits := by
  by_cases hw : width ≠ 4
  · exact .inr (if_pos hw)
  · have inside : ¬(addr < base ∨ base + 64 ≤ addr) := by omega
    rw [locate, if_neg hw, if_neg inside, if_pos (h.resolve_right hw)]
    exact .inl rfl

/-- Settles O19: what the address refuses, the step refuses. -/
theorem misalignedOrWrongWidthAccessesAreRefused : Obligations.MisalignedOrWrongWidthAccessesAreRefused := by
  intro s write addr width v rest hp hlow hhigh h
  have refuses {r : Refusal} (hl : locate Config.crcBase addr width = .error r) : step s = .refused r :=
    step_refused (by simp only [fetch, hp, acceptByteAccess, hl])
  exact (locate_refuses hlow hhigh h).imp refuses refuses

/-! ### The bits ABSORBD ignores (R49) -/

/-- A byte at bit `i` is the same in two words that agree from bit `k` on, where `i` is not below `k`. -/
theorem extractLsb'_of_shift_eq {d d' : Word} {k i : Nat} (h : d >>> k = d' >>> k) (hi : k ≤ i) :
    d.extractLsb' i 8 = d'.extractLsb' i 8 := by
  obtain ⟨j, rfl⟩ := Nat.exists_eq_add_of_le hi
  ext n hn
  have hbit := congrArg (·.getLsbD (j + n)) h
  simpa [hn, Nat.add_assoc] using hbit

/-- R49, R104: of DATA only the top n bytes are absorbed. -/
theorem absorbdBytes_of_shift_eq {d d' : Word} {n1 : BitVec 2}
    (h : d >>> (24 - 8 * n1.toNat) = d' >>> (24 - 8 * n1.toNat)) : absorbdBytes d n1 = absorbdBytes d' n1 := by
  have byte (i : Nat) (hi : 24 - 8 * n1.toNat ≤ i) := extractLsb'_of_shift_eq h hi
  have hn : n1 = 0#2 ∨ n1 = 1#2 ∨ n1 = 2#2 ∨ n1 = 3#2 :=
    (by decide : ∀ n : BitVec 2, n = 0#2 ∨ n = 1#2 ∨ n = 2#2 ∨ n = 3#2) n1
  simp only [absorbdBytes, wordBytes]
  rcases hn with rfl | rfl | rfl | rfl
  · rw [byte 24 (by decide)]; rfl
  · rw [byte 24 (by decide), byte 16 (by decide)]; rfl
  · rw [byte 24 (by decide), byte 16 (by decide), byte 8 (by decide)]; rfl
  · rw [byte 24 (by decide), byte 16 (by decide), byte 8 (by decide), byte 0 (by decide)]

/-- Settles O31: ABSORBD is the Absorbs of its bytes, and those are the same. -/
theorem ignoredBitsOfDataDoNotMatter : Obligations.IgnoredBitsOfDataDoNotMatter := by
  intro s d n1 h
  refine ⟨_, _, exec_of_command (c := .absorbd n1) rfl s, exec_of_command (c := .absorbd n1) rfl _, ?_, rfl⟩
  simp only [Block.perform_absorbd, Block.absorbData_eq, absorbdBytes_of_shift_eq h]

/-! ### What repeats (R50) -/

/-- R50: what a read returns depends on the block alone. -/
theorem exec_of_isRead {i : Instr} (h : i.isRead = true) :
    ∃ f : Block → Word, ∀ s, exec i s = .next (s.returnWord (f s.block)) := by
  cases i
  case rdCmd => exact ⟨(·.readIndex 0#4), fun _ => rfl⟩
  case rdData => exact ⟨(·.readIndex 1#4), fun _ => rfl⟩
  case rdExpect => exact ⟨(·.readIndex 2#4), fun _ => rfl⟩
  case rdResult => exact ⟨(·.readIndex 3#4), fun _ => rfl⟩
  case rdCount => exact ⟨(·.readIndex 4#4), fun _ => rfl⟩
  case rdStatus => exact ⟨(·.readIndex 5#4), fun _ => rfl⟩
  case rdR6R7 | rdR8R15 => exact ⟨fun _ => 0#32, fun _ => rfl⟩
  case nop | init | absorb8 | absorbd | check => cases h
  all_goals exact absurd ((isRead_of_encode_busWrite rfl).symm.trans h) (by decide)

/-- R50, R120: a command word written twice performs its command twice. -/
theorem exec_wrCmd_twice {w : Word} {c : Command} (h : decodeCommand w = c) (s : State) :
    ∃ t u : State, exec (.wrCmd w) s = .next t ∧ exec (.wrCmd w) t = .next u ∧
      u.block = (s.block.perform c).perform c := by
  have hw : (Instr.wrCmd w).command? = some c := congrArg some h
  exact ⟨_, _, exec_of_command hw s, exec_of_command hw _, rfl⟩

/-- Settles O41: a read keeps the block it reads, and the bytes of ABSORBD come from DATA, which the first one keeps. -/
theorem readsAndRepeatedWritesAreIdempotent : Obligations.ReadsAndRepeatedWritesAreIdempotent := by
  refine ⟨fun i s t u hi ht hu => ?read, fun s v => ⟨⟨_, rfl, rfl⟩, ⟨_, rfl, rfl, rfl, rfl⟩⟩, fun s x => ?absorb8,
    fun s n1 => ?absorbd, fun s t hwe h => by rw [exec_decodeTransaction_write hwe, State.busWrite_ignored s h]⟩
  case read =>
    obtain ⟨f, hf⟩ := exec_of_isRead hi
    cases (hf s).symm.trans ht
    cases (hf _).symm.trans hu
    exact ⟨rfl, f s.block, rfl, by simp⟩
  case absorb8 =>
    obtain ⟨t, u, ht, hu, hb⟩ := exec_wrCmd_twice (decodeCommand_absorb8_word x) s
    refine ⟨t, u, ht, hu, by rw [hb]; rfl, ?_⟩
    rw [hb]
    exact BitVec.add_assoc ..
  case absorbd =>
    obtain ⟨t, u, ht, hu, hb⟩ := exec_wrCmd_twice (decodeCommand_absorbd_word n1) s
    refine ⟨t, u, ht, hu, ?_, ?_⟩
    · rw [hb, crcRaw_append]
      simp only [Block.perform_absorbd, Block.absorbData_S, Block.absorbData_DATA]
      rfl
    · rw [hb, Block.perform_absorbd, Block.perform_absorbd, Block.absorbData_COUNT, Block.absorbData_COUNT,
        BitVec.add_assoc, ← BitVec.ofNat_add, ← Nat.two_mul]

end Sys2Proof.Machine
end

section
/-! SUPPORT. The family other, the encodings: both layers decode what they encode and encode what they decode (R60 to R63),
which row of the table a code lies on, and which words are illegal (R68). -/

namespace Sys2Proof

/-! ### Decoding an encoding -/

theorem isR6R7_iff (idx : WordIndex) : isR6R7 idx = true ↔ 6 ≤ idx.toNat ∧ idx.toNat ≤ 7 := by decide +revert

theorem isR8R15_iff (idx : WordIndex) : isR8R15 idx = true ↔ 8 ≤ idx.toNat := decide_eq_true_iff

theorem writeRow_of_isR6R7 {idx : WordIndex} (h : isR6R7 idx = true) (v : Word) : writeRow idx v = .wrR6R7 idx v := by
  rw [writeRow_of_reserved ((isR6R7_iff idx).mp h).1, if_pos h]

theorem readRow_of_isR6R7 {idx : WordIndex} (h : isR6R7 idx = true) : readRow idx = .rdR6R7 idx := by
  rw [readRow_of_reserved ((isR6R7_iff idx).mp h).1, if_pos h]

theorem not_isR6R7_of_isR8R15 {idx : WordIndex} (h : isR8R15 idx = true) : ¬isR6R7 idx = true := by
  rw [isR8R15_iff] at h
  rw [isR6R7_iff]
  omega

theorem writeRow_of_isR8R15 {idx : WordIndex} (h : isR8R15 idx = true) (v : Word) : writeRow idx v = .wrR8R15 idx v := by
  have hlow : 6 ≤ idx.toNat := Nat.le_trans (by decide) ((isR8R15_iff idx).mp h)
  rw [writeRow_of_reserved hlow, if_neg (not_isR6R7_of_isR8R15 h)]

theorem readRow_of_isR8R15 {idx : WordIndex} (h : isR8R15 idx = true) : readRow idx = .rdR8R15 idx := by
  have hlow : 6 ≤ idx.toNat := Nat.le_trans (by decide) ((isR8R15_iff idx).mp h)
  rw [readRow_of_reserved hlow, if_neg (not_isR6R7_of_isR8R15 h)]

@[simp] theorem decode_busWrite (idx : WordIndex) (v : Word) :
    decode (.transaction (busWrite idx v)) = .ok (writeRow idx v) := by simp [decode]

@[simp] theorem decode_busRead (idx : WordIndex) : decode (.transaction (busRead idx)) = .ok (readRow idx) := by
  simp [decode]

/-- R63: a command word decodes to the instruction its command is. -/
theorem decode_of_decodeCommand {w : Word} {c : Command} {i : Instr} (h : decodeCommand w = c) (hi : c.instr? = some i) :
    decode (.command w) = .ok i := by
  simp only [decode, h, hi]

/-- Settles O11: a command's word meets its own test, and a transaction's key selects its own row. -/
theorem decodingAnEncodingGivesTheInstruction : Obligations.DecodingAnEncodingGivesTheInstruction := by
  intro i hwf
  cases i with
  | nop => exact decode_of_decodeCommand decodeCommand_nop rfl
  | init => exact decode_of_decodeCommand decodeCommand_init rfl
  | absorb8 x => exact decode_of_decodeCommand (decodeCommand_absorb8_word x) rfl
  | absorbd n1 => exact decode_of_decodeCommand (decodeCommand_absorbd_word n1) rfl
  | check => exact decode_of_decodeCommand decodeCommand_check rfl
  | wrCmd v | wrData v | wrExpect v | wrResult v | wrCount v | wrStatus v => exact decode_busWrite _ v
  | rdCmd | rdData | rdExpect | rdResult | rdCount | rdStatus => exact decode_busRead _
  | wrR6R7 idx v => exact (decode_busWrite idx v).trans (congrArg _ (writeRow_of_isR6R7 hwf v))
  | rdR6R7 idx => exact (decode_busRead idx).trans (congrArg _ (readRow_of_isR6R7 hwf))
  | wrR8R15 idx v => exact (decode_busWrite idx v).trans (congrArg _ (writeRow_of_isR8R15 hwf v))
  | rdR8R15 idx => exact (decode_busRead idx).trans (congrArg _ (readRow_of_isR8R15 hwf))

/-- Settles O6: each word is evaluated. -/
theorem writtenOutWordsDecode : Obligations.WrittenOutWordsDecode :=
  ⟨rfl, rfl, rfl, rfl, rfl, rfl, rfl, rfl, rfl, rfl, rfl, rfl⟩

/-- Settles O10: a key is its two fields, and the row of a reserved index is the one whose range holds it. -/
theorem transactionKeysSelectTheirRows : Obligations.TransactionKeysSelectTheirRows := by
  have row (idx : WordIndex) (v : Word) :=
    And.intro (Machine.decodeTransaction_writeKey idx v) (Machine.decodeTransaction_readKey idx v)
  refine ⟨fun t => (keyOf_we_idx t).symm, fun v => ?mapped, fun idx v hlow hhigh => ?r6r7, fun idx v h => ?r8r15⟩
  case mapped =>
    exact ⟨(row 0#4 v).1, (row 0#4 v).2, (row 1#4 v).1, (row 1#4 v).2, (row 2#4 v).1, (row 2#4 v).2,
      (row 3#4 v).1, (row 3#4 v).2, (row 4#4 v).1, (row 4#4 v).2, (row 5#4 v).1, (row 5#4 v).2⟩
  case r6r7 =>
    have hrange : isR6R7 idx = true := (isR6R7_iff idx).mpr ⟨hlow, hhigh⟩
    exact (row idx v).imp (·.trans (writeRow_of_isR6R7 hrange v)) (·.trans (readRow_of_isR6R7 hrange))
  case r8r15 =>
    have hrange : isR8R15 idx = true := (isR8R15_iff idx).mpr h
    exact (row idx v).imp (·.trans (writeRow_of_isR8R15 hrange v)) (·.trans (readRow_of_isR8R15 hrange))

/-! ### Encoding what was decoded -/

/-- R33, R51: an index is one of the six mapped ones, or lies in the range of one of the two reserved rows. -/
theorem wordIndex_cases (idx : WordIndex) :
    idx = 0#4 ∨ idx = 1#4 ∨ idx = 2#4 ∨ idx = 3#4 ∨ idx = 4#4 ∨ idx = 5#4 ∨ isR6R7 idx = true ∨ isR8R15 idx = true := by
  decide +revert

/-- R61: the write row of an index is a well-formed instruction whose encoding is the write of that index. -/
theorem writeRow_spec (idx : WordIndex) (v : Word) :
    (writeRow idx v).wf = true ∧ encode (writeRow idx v) = .transaction (busWrite idx v) := by
  rcases wordIndex_cases idx with rfl | rfl | rfl | rfl | rfl | rfl | h | h
  case inr.inr.inr.inr.inr.inr.inl => rw [writeRow_of_isR6R7 h]; exact ⟨h, rfl⟩
  case inr.inr.inr.inr.inr.inr.inr => rw [writeRow_of_isR8R15 h]; exact ⟨h, rfl⟩
  all_goals exact ⟨rfl, rfl⟩

/-- R61: the read row of an index is a well-formed instruction whose encoding is the read of that index. -/
theorem readRow_spec (idx : WordIndex) :
    (readRow idx).wf = true ∧ encode (readRow idx) = .transaction (busRead idx) := by
  rcases wordIndex_cases idx with rfl | rfl | rfl | rfl | rfl | rfl | h | h
  case inr.inr.inr.inr.inr.inr.inl => rw [readRow_of_isR6R7 h]; exact ⟨h, rfl⟩
  case inr.inr.inr.inr.inr.inr.inr => rw [readRow_of_isR8R15 h]; exact ⟨h, rfl⟩
  all_goals exact ⟨rfl, rfl⟩

theorem busWrite_of_write {t : Transaction} (h : t.we = true) : busWrite t.idx t.wdata = t := by
  rw [busWrite, ← h, keyOf_we_idx]

theorem busRead_of_read {t : Transaction} (h : t.we = false) : busRead t.idx = ⟨t.key, 0#32⟩ := by
  rw [busRead, ← h, keyOf_we_idx]

/-- R63: a command that is an instruction is a well-formed one. -/
theorem Command.wf_of_instr? {c : Command} {i : Instr} (h : c.instr? = some i) : i.wf = true := by
  cases c <;> cases h <;> rfl

/-- R63, R68: a command word decodes where its command is an instruction. -/
theorem decodeCommand_of_decode {w : Word} {i : Instr} (h : decode (.command w) = .ok i) :
    (decodeCommand w).instr? = some i := by
  simp only [decode] at h
  split at h
  · cases h; assumption
  · cases h

/-- What a code decodes to is well-formed, and its encoding is the code, up to the data lines a read ignores. -/
theorem decode_spec {c : Code} {i : Instr} (h : decode c = .ok i) : i.wf = true ∧ encode i = c.normal := by
  cases c with
  | command w =>
    have hi := decodeCommand_of_decode h
    exact ⟨Command.wf_of_instr? hi, encode_of_decodeCommand hi⟩
  | transaction t =>
    cases h
    cases hwe : t.we with
    | true =>
      simpa only [decodeTransaction, Code.normal, hwe, if_true, busWrite_of_write hwe]
        using writeRow_spec t.idx t.wdata
    | false =>
      simpa only [decodeTransaction, Code.normal, hwe, Bool.false_eq_true, if_false, busRead_of_read hwe]
        using readRow_spec t.idx

/-- Settles O12: a row's instruction is encoded as the write or read of its own index. -/
theorem encodingADecodedCodeGivesTheCode : Obligations.EncodingADecodedCodeGivesTheCode :=
  fun _ _ h => (decode_spec h).2

/-! ### The rows of the table -/

/-- R61, R63: the encoding of a well-formed instruction lies on the row it stands for. -/
theorem Instr.encode_on_its_row : ∀ i : Instr, Laws.LiesOnItsRow.Statement i
  | .nop => Laws.LiesOnItsRow.nop
  | .init => Laws.LiesOnItsRow.init
  | .absorb8 x => Laws.LiesOnItsRow.absorb8 x
  | .absorbd n1 => Laws.LiesOnItsRow.absorbd n1
  | .check => Laws.LiesOnItsRow.check
  | .wrCmd v => Laws.LiesOnItsRow.wrCmd v
  | .rdCmd => Laws.LiesOnItsRow.rdCmd
  | .wrData v => Laws.LiesOnItsRow.wrData v
  | .rdData => Laws.LiesOnItsRow.rdData
  | .wrExpect v => Laws.LiesOnItsRow.wrExpect v
  | .rdExpect => Laws.LiesOnItsRow.rdExpect
  | .wrResult v => Laws.LiesOnItsRow.wrResult v
  | .rdResult => Laws.LiesOnItsRow.rdResult
  | .wrCount v => Laws.LiesOnItsRow.wrCount v
  | .rdCount => Laws.LiesOnItsRow.rdCount
  | .wrStatus v => Laws.LiesOnItsRow.wrStatus v
  | .rdStatus => Laws.LiesOnItsRow.rdStatus
  | .wrR6R7 idx v => Laws.LiesOnItsRow.wrR6R7 idx v
  | .rdR6R7 idx => Laws.LiesOnItsRow.rdR6R7 idx
  | .wrR8R15 idx v => Laws.LiesOnItsRow.wrR8R15 idx v
  | .rdR8R15 idx => Laws.LiesOnItsRow.rdR8R15 idx

/-- R61: a row looks at the key alone, so at no line a read ignores. -/
theorem Row.accepts_normal (r : Row) (c : Code) : r.accepts c.normal = r.accepts c := by
  cases c with
  | command w => rfl
  | transaction t => cases r <;> cases h : t.we <;> simp [Code.normal, Row.accepts, h]

/-- Two rows of one layer differ in a bit that both fix, or they are of different layers. -/
def Row.apart : Row → Row → Bool
  | .command p m, .command q n => (p ^^^ q) &&& (m &&& n) != 0#32
  | .transaction p m, .transaction q n => (p ^^^ q) &&& (m &&& n) != 0#5
  | .command _ _, .transaction _ _ => true
  | .transaction _ _, .command _ _ => true

/-- Two patterns that one word matches agree on the bits both masks fix. -/
theorem xor_and_masks_of_match {k : Nat} {w m n p q : BitVec k} (hp : w &&& m = p) (hq : w &&& n = q) :
    (p ^^^ q) &&& (m &&& n) = 0#k := by
  subst hp hq
  ext i hi
  simp only [BitVec.getElem_and, BitVec.getElem_xor, BitVec.getElem_zero]
  cases w[i] <;> cases m[i] <;> cases n[i] <;> rfl

/-- No code lies on two rows that are apart. -/
theorem Row.not_apart_of_accepts {r r' : Row} {c : Code} (h : r.accepts c = true) (h' : r'.accepts c = true) :
    r.apart r' = false := by
  cases c <;> cases r <;> cases r'
  case command.command.command | transaction.transaction.transaction =>
    exact bne_eq_false_iff_eq.mpr (xor_and_masks_of_match (beq_iff_eq.mp h) (beq_iff_eq.mp h'))
  case command.transaction.command | command.transaction.transaction => cases h
  case transaction.command.command | transaction.command.transaction => cases h
  all_goals cases h'

/-- R61, R63: the rows of the table are apart. -/
theorem opcodeTable_apart : ∀ r ∈ opcodeTable, ∀ r' ∈ opcodeTable, r.apart r' = false → r = r' := by decide

/-- Settles O13: the row of the decoded instruction takes the code, and it is apart from every other row. -/
theorem decodedCodesLieOnOneRowOfTheTable : Obligations.DecodedCodesLieOnOneRowOfTheTable := by
  intro c i h
  obtain ⟨hwf, hencode⟩ := decode_spec h
  obtain ⟨hrow, haccepts⟩ := i.encode_on_its_row hwf
  rw [hencode, Row.accepts_normal] at haccepts
  exact ⟨hwf, hrow, haccepts, fun r hr hr' => opcodeTable_apart r hr _ hrow (Row.not_apart_of_accepts hr' haccepts)⟩

/-! ### The illegal words (R68) -/

/-- R62: a word is on the row of its OP where the field above the row's `k` free bits is the pattern's too. -/
theorem and_mask_of_fields {k : Nat} {w m p : Word} (hk : k ≤ 24) (hm : m = BitVec.allOnes 32 <<< k) (hp : p &&& m = p)
    (hop : opOf w = opOf p) (hfield : w.extractLsb' k (24 - k) = p.extractLsb' k (24 - k)) : w &&& m = p := by
  rw [← hp, hm]
  ext i hi
  simp only [BitVec.getElem_and]
  by_cases hlow : i < k
  · simp [hlow]
  · congr 1
    by_cases hhigh : i < 24
    · have hbit := congrArg (·.getLsbD (i - k)) hfield
      simpa [show i - k < 24 - k by omega, show k + (i - k) = i by omega, BitVec.getLsbD_eq_getElem hi] using hbit
    · have hbit := congrArg (·.getLsbD (i - 24)) hop
      simpa [opOf, show i - 24 < 8 by omega, show 24 + (i - 24) = i by omega, BitVec.getLsbD_eq_getElem hi] using hbit

/-- R68: under the OP of a row with `k` free bits, a word is illegal exactly where a reserved bit, one above them, is set. -/
theorem decodeCommand_eq_illegal_iff_of_op (k : Nat) {p m w : Word} (hop : opOf w = opOf p)
    (hrow : Row.command p m ∈ commandRows ∧ (Row.command p m).op? = some (opOf p) ∧ k ≤ 24 ∧
      m = BitVec.allOnes 32 <<< k ∧ m.extractLsb' k (24 - k) = BitVec.allOnes (24 - k) ∧ p &&& m = p ∧
      p.extractLsb' k (24 - k) = 0#(24 - k)) :
    decodeCommand w = .illegal ↔ w.extractLsb' k (24 - k) ≠ 0#(24 - k) := by
  obtain ⟨hr, hrop, hk, hm, hones, hp, hzero⟩ := hrow
  constructor
  · intro hillegal hfield
    have haccepts : w &&& m = p := and_mask_of_fields hk hm hp hop (hfield.trans hzero.symm)
    exact (decodeCommand_ne_illegal_iff w).mpr ⟨_, hr, beq_iff_eq.mpr haccepts⟩ hillegal
  · exact decodeCommand_of_reserved_bits k (24 - k) hr (hop ▸ hrop) hones hzero

/-- The 263 legal words: those of the three rows without a free bit, and those of the two with one. -/
theorem exists_list_of_legal_words :
    ∃ l : List Word, l.Nodup ∧ l.length = 263 ∧ ∀ w : Word, w ∈ l ↔ decodeCommand w ≠ .illegal := by
  obtain ⟨-, -, -, hnop, hinit, ⟨l8, hnodup8, hlength8, hmem8⟩, ⟨ld, hnodupd, hlengthd, hmemd⟩, hcheck⟩ :=
    Machine.legalWordsLieOnExactlyOneRow
  refine ⟨[0x00000000#32, 0x01000000#32, 0x04000000#32] ++ (l8 ++ ld), ?nodup, by simp [hlength8, hlengthd], fun w => ?mem⟩
  case nodup =>
    refine List.Nodup.append (by decide) (List.Nodup.append hnodup8 hnodupd ?_) ?_
    · intro w h8 hd
      obtain ⟨x, hx⟩ := (hmem8 w).mp h8
      obtain ⟨n1, hn1⟩ := (hmemd w).mp hd
      cases hx.symm.trans hn1
    · intro w hfixed hfree
      simp only [List.mem_append, hmem8, hmemd] at hfree
      simp only [List.mem_cons, List.not_mem_nil, or_false] at hfixed
      rcases hfixed with rfl | rfl | rfl <;> simp at hfree
  case mem =>
    simp only [List.mem_append, List.mem_cons, List.not_mem_nil, or_false, hmem8, hmemd, ← hnop, ← hinit, ← hcheck]
    cases decodeCommand w <;> simp

/-- Settles O9: a word with a legal OP and its reserved bits 0 is on the row of its OP; the rows count the legal words. -/
theorem illegalWordsHaveAnUndefinedOpOrAReservedBit : Obligations.IllegalWordsHaveAnUndefinedOpOrAReservedBit := by
  refine ⟨fun w => ?_, exists_list_of_legal_words⟩
  by_cases hundefined : 5 ≤ (opOf w).toNat
  · simp [hundefined, decodeCommand_of_undefined_op]
  · have ops : ∀ o : BitVec 8, ¬5 ≤ o.toNat → o = 0x00#8 ∨ o = 0x01#8 ∨ o = 0x02#8 ∨ o = 0x03#8 ∨ o = 0x04#8 := by decide
    rcases ops _ hundefined with hop | hop | hop | hop | hop
    · rw [decodeCommand_eq_illegal_iff_of_op 0 (p := 0x00000000#32) (m := 0xFFFFFFFF#32) hop (by decide)]
      simp [hop]
    · rw [decodeCommand_eq_illegal_iff_of_op 0 (p := 0x01000000#32) (m := 0xFFFFFFFF#32) hop (by decide)]
      simp [hop]
    · rw [decodeCommand_eq_illegal_iff_of_op 8 (p := 0x02000000#32) (m := 0xFFFFFF00#32) hop (by decide)]
      simp [hop]
    · rw [decodeCommand_eq_illegal_iff_of_op 2 (p := 0x03000000#32) (m := 0xFFFFFFFC#32) hop (by decide)]
      simp [hop]
    · rw [decodeCommand_eq_illegal_iff_of_op 0 (p := 0x04000000#32) (m := 0xFFFFFFFF#32) hop (by decide)]
      simp [hop]

end Sys2Proof
end

section
/-! SUPPORT. The family other, the CRC function: the rounds are linear over XOR (R89), from which its other forms (R83, R84),
its error detection (R89), its residue (R90) and its polynomial form (R85) follow. -/

namespace Sys2Proof.Machine

/-! ### Linearity (R89) -/

theorem bitStep_xor (a b : Word) : bitStep (a ^^^ b) = bitStep a ^^^ bitStep b := by
  apply BitVec.eq_of_getLsbD_eq
  intro i hi
  simp only [getLsbD_bitStep, BitVec.getLsbD_xor, Bool.and_xor_distrib_right, Bool.xor_assoc, Bool.xor_left_comm]

theorem bitSteps_xor (n : Nat) (a b : Word) : bitSteps n (a ^^^ b) = bitSteps n a ^^^ bitSteps n b := by
  induction n generalizing a b with
  | zero => rfl
  | succ n ih => rw [bitSteps_succ, bitStep_xor, ih]; rfl

@[simp] theorem bitSteps_zero_word (n : Nat) : bitSteps n 0#32 = 0#32 := by
  induction n with
  | zero => rfl
  | succ n ih => exact ih

theorem byteStep_xor (s1 s2 : Word) (x1 x2 : Byte) :
    byteStep (s1 ^^^ s2) (x1 ^^^ x2) = byteStep s1 x1 ^^^ byteStep s2 x2 := by
  have hregroup : s1 ^^^ s2 ^^^ (x1.setWidth 32 ^^^ x2.setWidth 32) =
      (s1 ^^^ x1.setWidth 32) ^^^ (s2 ^^^ x2.setWidth 32) := by ac_rfl
  rw [byteStep, BitVec.setWidth_xor, hregroup, bitSteps_xor, byteStep, byteStep]

theorem crcRaw_zipWith_xor (s1 s2 : Word) {m e : List Byte} (h : m.length = e.length) :
    crcRaw (s1 ^^^ s2) (List.zipWith (· ^^^ ·) m e) = crcRaw s1 m ^^^ crcRaw s2 e := by
  induction m generalizing s1 s2 e with
  | nil => rw [List.length_eq_zero_iff.mp h.symm]; rfl
  | cons x m ih =>
    cases e with
    | nil => cases h
    | cons y e =>
      rw [List.zipWith_cons_cons, crcRaw_cons, byteStep_xor, ih _ _ (Nat.succ.inj h)]
      rfl

/-- Settles O49: each round is linear, and a message is its bytes one after another. -/
theorem byteStepIsLinearOverXor : Obligations.ByteStepIsLinearOverXor := by
  refine ⟨byteStep_xor, bitSteps_zero_word 8, fun s m e h => ?_⟩
  rw [← crcRaw_zipWith_xor s 0#32 h, BitVec.xor_zero]

/-! ### The table form (R83) -/

/-- A round on a register whose lowest bit is 0 is a shift, and so are as many rounds as the register has 0 bits below. -/
theorem bitSteps_of_low_zero {n : Nat} {t : Word} (h : ∀ i < n, t.getLsbD i = false) : bitSteps n t = t >>> n := by
  induction n generalizing t with
  | zero => rw [bitSteps_zero, BitVec.ushiftRight_zero]
  | succ n ih =>
    have hshift : bitStep t = t >>> 1 := by rw [bitStep, h 0 (Nat.succ_pos n), if_neg Bool.false_ne_true]
    rw [bitSteps_succ, hshift, ih, ← BitVec.shiftRight_add, Nat.add_comm]
    intro i hi
    rw [BitVec.getLsbD_ushiftRight, Nat.add_comm]
    exact h (i + 1) (Nat.succ_lt_succ hi)

/-- A register is its upper 24 bits beside its low byte. -/
theorem upper_xor_low_byte (t : Word) : ((t >>> 8) <<< 8) ^^^ (t.extractLsb' 0 8).setWidth 32 = t := by
  apply BitVec.eq_of_getLsbD_eq
  intro i hi
  by_cases h : i < 8
  · simp [h, hi]
  · simp [h, hi, show 8 + (i - 8) = i by omega]

/-- A byte enters a register below bit 8. -/
theorem xor_byte_shift (s : Word) (x : Byte) : (s ^^^ x.setWidth 32) >>> 8 = s >>> 8 := by
  have hx : x.setWidth 32 >>> 8 = 0#32 := by
    apply BitVec.eq_of_getLsbD_eq
    intro i hi
    simp
  rw [BitVec.ushiftRight_xor_distrib, hx, BitVec.xor_zero]

/-- The eight rounds shift the upper 24 bits out and take the low byte through the table. -/
theorem bitSteps_eq_table (t : Word) : bitSteps 8 t = (t >>> 8) ^^^ crcTable (t.extractLsb' 0 8) := by
  have hupper : bitSteps 8 ((t >>> 8) <<< 8) = t >>> 8 := by
    rw [bitSteps_of_low_zero (fun i hi => by simp [hi])]
    apply BitVec.eq_of_getLsbD_eq
    intro i hi
    by_cases h : 8 + i < 32
    · simp [h]
    · simp [h, BitVec.getLsbD_of_ge t (8 + i) (Nat.le_of_not_lt h)]
  calc bitSteps 8 t
      = bitSteps 8 (((t >>> 8) <<< 8) ^^^ (t.extractLsb' 0 8).setWidth 32) := by rw [upper_xor_low_byte]
    _ = (t >>> 8) ^^^ crcTable (t.extractLsb' 0 8) := by
        rw [bitSteps_xor, hupper, crcTable, byteStep, BitVec.zero_xor]

theorem tableStep_eq_byteStep (s : Word) (x : Byte) : tableStep s x = byteStep s x := by
  rw [byteStep, bitSteps_eq_table, xor_byte_shift, tableStep]

/-- Settles O47: the table holds the rounds of the low byte, and the rounds of the other bits are a shift. -/
theorem tableFormEqualsByteStep : Obligations.TableFormEqualsByteStep := tableStep_eq_byteStep

/-! ### Errors (R89) -/

theorem bitStep_injective : Function.Injective bitStep := by
  intro a b h
  have hbit (i : Nat) : (bitStep a).getLsbD i = (bitStep b).getLsbD i := by rw [h]
  simp only [getLsbD_bitStep] at hbit
  have hlow : a.getLsbD 0 = b.getLsbD 0 := by simpa [crcPolyReflected] using hbit 31
  apply BitVec.eq_of_getLsbD_eq
  intro i hi
  cases i with
  | zero => exact hlow
  | succ i => simpa only [hlow, Bool.xor_left_inj] using hbit i

theorem bitSteps_injective (n : Nat) : Function.Injective (bitSteps n) := by
  induction n with
  | zero => exact Function.injective_id
  | succ n ih => exact ih.comp bitStep_injective

theorem byteStep_left_injective (x : Byte) : Function.Injective (byteStep · x) := fun _ _ h =>
  (BitVec.xor_left_inj _).mp (bitSteps_injective 8 h)

theorem byteStep_right_injective (s : Word) : Function.Injective (byteStep s) := fun x y h => by
  have hwide : x.setWidth 32 = y.setWidth 32 := (BitVec.xor_right_inj s).mp (bitSteps_injective 8 h)
  simpa using congrArg (BitVec.setWidth 8) hwide

theorem crcRaw_injective (m : List Byte) : Function.Injective (crcRaw · m) := by
  induction m with
  | nil => exact Function.injective_id
  | cons x m ih => exact ih.comp (byteStep_left_injective x)

/-- Settles O50: the changed byte gives another register, and no later byte makes two registers one. -/
theorem everySingleByteErrorChangesTheChecksum : Obligations.EverySingleByteErrorChangesTheChecksum := by
  intro a b x y hxy h
  have hraw := (BitVec.xor_left_inj _).mp h
  rw [crcRaw_append, crcRaw_append] at hraw
  exact hxy (byteStep_right_injective _ (crcRaw_injective b hraw))

/-! ### The residue (R90) -/

/-- A register takes in its own low byte as a shift: the table entry of byte 0 is 0. -/
theorem byteStep_own_byte (s : Word) (k : Nat) : byteStep (s >>> k) (s.extractLsb' k 8) = s >>> (k + 8) := by
  have hlow : ∀ i < 8, ((s >>> k) ^^^ (s.extractLsb' k 8).setWidth 32).getLsbD i = false := by
    intro i hi
    simp [hi, show i < 32 by omega]
  rw [byteStep, bitSteps_of_low_zero hlow, xor_byte_shift, BitVec.shiftRight_add]

/-- The bytes of a register in the order they leave it. -/
def bytesLowFirst (w : Word) : List Byte :=
  [w.extractLsb' 0 8, w.extractLsb' 8 8, w.extractLsb' 16 8, w.extractLsb' 24 8]

@[simp] theorem length_bytesLowFirst (w : Word) : (bytesLowFirst w).length = 4 := rfl

/-- A register that takes in its own bytes, low byte first, is shifted out. -/
theorem crcRaw_own_bytes (s : Word) : crcRaw s (bytesLowFirst s) = 0#32 := by
  have h0 : byteStep s (s.extractLsb' 0 8) = s >>> 8 := byteStep_own_byte s 0
  simp only [bytesLowFirst, crcRaw_cons, crcRaw_nil, h0, byteStep_own_byte]
  exact BitVec.ushiftRight_eq_zero (Nat.le_refl 32)

theorem bytesLowFirst_xor (a b : Word) :
    bytesLowFirst (a ^^^ b) = List.zipWith (· ^^^ ·) (bytesLowFirst a) (bytesLowFirst b) := by
  simp only [bytesLowFirst, BitVec.extractLsb'_xor, List.zipWith_cons_cons, List.zipWith_nil_left]

/-- The residue is what a register of 0 becomes by the bytes of the final XOR. -/
theorem crcRaw_xorOut_bytes : crcRaw 0#32 (bytesLowFirst crcXorOut) = 0xDEBB20E3#32 := by decide +kernel

/-- R90: the bytes of a checksum are the register's own, which shift it out, beside those of the final XOR, which leave the
residue. -/
theorem crcRaw_checksum_bytes (s : Word) : crcRaw s (bytesLowFirst (s ^^^ crcXorOut)) = 0xDEBB20E3#32 := by
  have hlength : (bytesLowFirst s).length = (bytesLowFirst crcXorOut).length := by simp
  calc crcRaw s (bytesLowFirst (s ^^^ crcXorOut))
      = crcRaw (s ^^^ 0#32) (List.zipWith (· ^^^ ·) (bytesLowFirst s) (bytesLowFirst crcXorOut)) := by
        rw [bytesLowFirst_xor, BitVec.xor_zero]
    _ = crcRaw s (bytesLowFirst s) ^^^ crcRaw 0#32 (bytesLowFirst crcXorOut) := crcRaw_zipWith_xor s 0#32 hlength
    _ = 0xDEBB20E3#32 := by rw [crcRaw_own_bytes, crcRaw_xorOut_bytes, BitVec.zero_xor]

/-- Settles O51: the register at the end of the message takes in the bytes of its checksum. -/
theorem checksumAppendedLeavesTheResidue : Obligations.ChecksumAppendedLeavesTheResidue := by
  intro m
  rw [crcRaw_append]
  exact crcRaw_checksum_bytes (crcRaw crcInit m)

/-- Settles O46: both checksums are evaluated. -/
theorem publishedVectorsGiveTheirChecksums : Obligations.PublishedVectorsGiveTheirChecksums :=
  ⟨by decide +kernel, by decide +kernel⟩

/-! ### The most-significant-bit-first form (R84) -/

theorem reverse_xor (a b : Word) : (a ^^^ b).reverse = a.reverse ^^^ b.reverse := by
  apply BitVec.eq_of_getMsbD_eq
  intro i hi
  simp [BitVec.getMsbD_reverse]

/-- A shift down is a shift up of the reversed register. -/
theorem reverse_shift (t : Word) : (t >>> 1).reverse = t.reverse <<< 1 := by
  apply BitVec.eq_of_getMsbD_eq
  intro i hi
  simp [BitVec.getMsbD_reverse, Nat.add_comm]

/-- R84: a byte enters the reversed register at its upper end, reversed. -/
theorem reverse_byte (x : Byte) : (x.setWidth 32).reverse = x.reverse.setWidth 32 <<< 24 := by
  apply BitVec.eq_of_getMsbD_eq
  intro i hi
  rw [BitVec.getMsbD_reverse, BitVec.getMsbD_eq_getLsbD, BitVec.getLsbD_shiftLeft, BitVec.getLsbD_setWidth,
    BitVec.getLsbD_setWidth, BitVec.getLsbD_reverse, BitVec.getMsbD_eq_getLsbD]
  by_cases h : i < 8
  · have hindex : 8 - 1 - (32 - 1 - i - 24) = i := by omega
    rw [hindex]
    simp [hi, h, show 31 - i < 32 by omega, show 31 - i - 24 < 32 by omega, show 32 - 1 - i - 24 < 8 by omega,
      show ¬32 - 1 - i < 24 by omega]
  · simp [BitVec.getLsbD_of_ge x i (by omega), show 32 - 1 - i < 24 by omega]

/-- R84: one round on the reversed register; the polynomials are each other's reversal (R81). -/
theorem msbBitStep_reverse (t : Word) : msbBitStep t.reverse = (bitStep t).reverse := by
  have hpoly : crcPolyReflected.reverse = crcPoly := by decide +kernel
  have htop : t.reverse.getLsbD 31 = t.getLsbD 0 := BitVec.getLsbD_reverse
  rw [msbBitStep, htop, bitStep, ← reverse_shift]
  split
  · rw [reverse_xor, hpoly]
  · rw [BitVec.xor_zero]

theorem msbBitSteps_reverse (n : Nat) (t : Word) : msbBitSteps n t.reverse = (bitSteps n t).reverse := by
  induction n generalizing t with
  | zero => rfl
  | succ n ih => rw [msbBitSteps_succ, msbBitStep_reverse, ih, bitSteps_succ]

theorem msbByteStep_reverse (s : Word) (x : Byte) : msbByteStep s.reverse x = (byteStep s x).reverse := by
  rw [msbByteStep, ← reverse_byte, ← reverse_xor, msbBitSteps_reverse, byteStep]

theorem foldl_msbByteStep_reverse (s : Word) (m : List Byte) :
    m.foldl msbByteStep s.reverse = (crcRaw s m).reverse := by
  induction m generalizing s with
  | nil => rfl
  | cons x m ih => rw [List.foldl_cons, msbByteStep_reverse, ih, crcRaw_cons]

/-- Settles O48: the start value is its own reversal, and reversing twice gives the register back. -/
theorem msbFirstFormIsTheSameChecksum : Obligations.MsbFirstFormIsTheSameChecksum := by
  refine ⟨msbByteStep_reverse, fun m => ?_⟩
  have hinit : 0xFFFFFFFF#32 = crcInit.reverse := by decide +kernel
  have hfold : m.foldl msbByteStep 0xFFFFFFFF#32 = (crcRaw crcInit m).reverse := by
    rw [hinit, foldl_msbByteStep_reverse]
  rw [hfold, BitVec.reverse_reverse_eq, crc32, crcXorOut]

end Sys2Proof.Machine
end

section
/-! SUPPORT. The family other, the polynomial form (40_crc_function.md R81, R85): a register as a polynomial over the integers
modulo 2, what a round and a byte do to it modulo the generator, and the remainder of the whole message. -/

namespace Sys2Proof.Machine

open Polynomial

/-! ### Bits as coefficients -/

def bitCoeff (b : Bool) : ZMod 2 := if b then 1 else 0

theorem bitCoeff_xor (a b : Bool) : bitCoeff (a ^^ b) = bitCoeff a + bitCoeff b := by decide +revert

theorem bitCoeff_and (a b : Bool) : bitCoeff (a && b) = bitCoeff a * bitCoeff b := by decide +revert

theorem C_bitCoeff_mul (b : Bool) (p : (ZMod 2)[X]) : C (bitCoeff b) * p = if b then p else 0 := by
  cases b <;> simp [bitCoeff]

/-! ### The register as a polynomial (R81) -/

/-- R81, R85: bit i of the register is the coefficient of x^(31-i). -/
noncomputable def registerPoly (s : Word) : (ZMod 2)[X] :=
  ∑ k ∈ Finset.range 32, C (bitCoeff (s.getLsbD (31 - k))) * X ^ k

/-- R81: the generator, x^32 beside the polynomial of R80. -/
noncomputable def generatorPoly : (ZMod 2)[X] := X ^ 32 + registerPoly crcPolyReflected

theorem coeff_registerPoly (s : Word) (j : ℕ) :
    (registerPoly s).coeff j = if j < 32 then bitCoeff (s.getLsbD (31 - j)) else 0 := by
  simp only [registerPoly, finsetSum_coeff, coeff_C_mul_X_pow, Finset.sum_ite_eq, Finset.mem_range]

theorem degree_registerPoly_lt (s : Word) : (registerPoly s).degree < (32 : ℕ) := by
  rw [degree_lt_iff_coeff_zero]
  intro j hj
  rw [coeff_registerPoly, if_neg (by omega)]

theorem generatorPoly_monic : generatorPoly.Monic := monic_X_pow_add (degree_registerPoly_lt _)

theorem degree_generatorPoly : generatorPoly.degree = (32 : ℕ) := by
  rw [generatorPoly, degree_add_eq_left_of_degree_lt] <;> rw [degree_X_pow]
  exact degree_registerPoly_lt _

theorem registerPoly_modByMonic (s : Word) : registerPoly s %ₘ generatorPoly = registerPoly s := by
  rw [modByMonic_eq_self_iff generatorPoly_monic, degree_generatorPoly]
  exact degree_registerPoly_lt s

theorem registerPoly_xor (a b : Word) : registerPoly (a ^^^ b) = registerPoly a + registerPoly b := by
  simp only [registerPoly, BitVec.getLsbD_xor, bitCoeff_xor, C_add, add_mul, Finset.sum_add_distrib]

/-- A round multiplies by x, and adds the generator where the bit that leaves, the coefficient of x^31, is 1. -/
theorem registerPoly_bitStep (t : Word) :
    registerPoly (bitStep t) = X * registerPoly t + C (bitCoeff (t.getLsbD 0)) * generatorPoly := by
  ext j
  simp only [generatorPoly, coeff_add, coeff_C_mul, coeff_X_pow, coeff_registerPoly, getLsbD_bitStep, bitCoeff_xor,
    bitCoeff_and]
  cases j with
  | zero => simp [bitCoeff]
  | succ j =>
    rw [coeff_X_mul, coeff_registerPoly]
    rcases Nat.lt_trichotomy j 31 with h | rfl | h
    · have hbit : 30 - j + 1 = 31 - j := by omega
      simp [hbit, show j + 1 < 32 by omega, show j < 32 by omega, show j ≠ 31 by omega]
    · have hchar (c : ZMod 2) : c + c = 0 := CharTwo.add_self_eq_zero c
      simp [hchar]
    · simp [show ¬j + 1 < 32 by omega, show ¬j < 32 by omega, show j ≠ 31 by omega]

/-- Modulo the generator, n rounds multiply by x^n. -/
theorem generatorPoly_dvd_bitSteps (n : ℕ) (t : Word) :
    generatorPoly ∣ X ^ n * registerPoly t - registerPoly (bitSteps n t) := by
  induction n generalizing t with
  | zero => simp
  | succ n ih =>
    have hround : X ^ (n + 1) * registerPoly t - registerPoly (bitSteps n (bitStep t)) =
        (X ^ n * registerPoly (bitStep t) - registerPoly (bitSteps n (bitStep t))) -
          generatorPoly * (X ^ n * C (bitCoeff (t.getLsbD 0))) := by
      rw [registerPoly_bitStep]
      ring
    rw [bitSteps_succ, hround]
    exact dvd_sub (ih _) (dvd_mul_right _ _)

/-! ### The message as a polynomial (R85) -/

/-- A byte's bits from b[0], the coefficient of x^7, to b[7]. -/
noncomputable def bytePoly (x : Byte) : (ZMod 2)[X] := ∑ k ∈ Finset.range 8, C (bitCoeff (x.getLsbD k)) * X ^ (7 - k)

/-- R85: the first bit of the message is the coefficient of x^(8L-1). -/
noncomputable def messagePoly (m : List Byte) : (ZMod 2)[X] :=
  ∑ k ∈ Finset.range (8 * m.length), C (bitCoeff ((m.getD (k / 8) 0#8).getLsbD (k % 8))) * X ^ (8 * m.length - 1 - k)

@[simp] theorem messagePoly_nil : messagePoly [] = 0 := Finset.sum_range_zero _

theorem messagePoly_cons (x : Byte) (m : List Byte) :
    messagePoly (x :: m) = X ^ (8 * m.length) * bytePoly x + messagePoly m := by
  rw [messagePoly, List.length_cons, Nat.mul_succ, Nat.add_comm (8 * m.length), Finset.sum_range_add, bytePoly,
    Finset.mul_sum, messagePoly]
  refine congrArg₂ _ (Finset.sum_congr rfl fun k hk => ?_) (Finset.sum_congr rfl fun k _ => ?_)
  · rw [Finset.mem_range] at hk
    rw [Nat.div_eq_of_lt hk, Nat.mod_eq_of_lt hk, show 8 + 8 * m.length - 1 - k = 8 * m.length + (7 - k) by omega, pow_add,
      List.getD_cons_zero]
    ring
  · rw [Nat.add_div_left k (by decide), Nat.add_mod_left, List.getD_cons_succ,
      show 8 + 8 * m.length - 1 - (8 + k) = 8 * m.length - 1 - k by omega]

/-- R65, R85: a byte enters the register at its upper coefficients. -/
theorem registerPoly_byte (x : Byte) : registerPoly (x.setWidth 32) = X ^ 24 * bytePoly x := by
  rw [registerPoly, Finset.sum_range_add _ 24 8, Finset.sum_eq_zero, zero_add, bytePoly, Finset.mul_sum,
    ← Finset.sum_range_reflect]
  · refine Finset.sum_congr rfl fun k hk => ?_
    rw [Finset.mem_range] at hk
    have hbit : (x.setWidth 32).getLsbD (31 - (24 + (8 - 1 - k))) = x.getLsbD k := by
      rw [show 31 - (24 + (8 - 1 - k)) = k by omega]
      simp [show k < 32 by omega]
    rw [hbit, pow_add]
    ring
  · intro k hk
    rw [Finset.mem_range] at hk
    simp [BitVec.getLsbD_of_ge x (31 - k) (by omega), bitCoeff]

/-- Modulo the generator, a byte multiplies the register by x^8 and adds the byte times x^32. -/
theorem generatorPoly_dvd_byteStep (s : Word) (x : Byte) :
    generatorPoly ∣ X ^ 8 * registerPoly s + X ^ 32 * bytePoly x - registerPoly (byteStep s x) := by
  have hbyte : X ^ 8 * registerPoly s + X ^ 32 * bytePoly x = X ^ 8 * registerPoly (s ^^^ x.setWidth 32) := by
    rw [registerPoly_xor, registerPoly_byte]
    ring
  rw [hbyte]
  exact generatorPoly_dvd_bitSteps 8 _

/-- R85: modulo the generator, a message multiplies the register by x^(8L) and adds the message times x^32. -/
theorem generatorPoly_dvd_crcRaw (s : Word) (m : List Byte) :
    generatorPoly ∣ X ^ 32 * messagePoly m + X ^ (8 * m.length) * registerPoly s - registerPoly (crcRaw s m) := by
  induction m generalizing s with
  | nil => simp
  | cons x m ih =>
    have hsplit : X ^ 32 * messagePoly (x :: m) + X ^ (8 * (x :: m).length) * registerPoly s -
        registerPoly (crcRaw s (x :: m)) =
        X ^ (8 * m.length) * (X ^ 8 * registerPoly s + X ^ 32 * bytePoly x - registerPoly (byteStep s x)) +
          (X ^ 32 * messagePoly m + X ^ (8 * m.length) * registerPoly (byteStep s x) -
            registerPoly (crcRaw (byteStep s x) m)) := by
      rw [messagePoly_cons, List.length_cons, crcRaw_cons, Nat.mul_succ, pow_add]
      ring
    rw [hsplit]
    exact dvd_add (Dvd.dvd.mul_left (generatorPoly_dvd_byteStep s x) _) (ih _)

/-- R85: the remainder of the message polynomial is the register at the end of the message. -/
theorem message_modByMonic_generatorPoly (m : List Byte) :
    (X ^ 32 * messagePoly m + X ^ (8 * m.length) * registerPoly crcInit) %ₘ generatorPoly =
      registerPoly (crcRaw crcInit m) := by
  rw [modByMonic_eq_of_dvd_sub generatorPoly_monic (generatorPoly_dvd_crcRaw crcInit m), registerPoly_modByMonic]

/-! ### The statement -/

/-- R81: the generator written out. -/
theorem generatorPoly_eq : generatorPoly =
    X ^ 32 + X ^ 26 + X ^ 23 + X ^ 22 + X ^ 16 + X ^ 12 + X ^ 11 + X ^ 10 + X ^ 8 + X ^ 7 + X ^ 5 + X ^ 4 + X ^ 2 + X + 1 := by
  simp only [generatorPoly, registerPoly, C_bitCoeff_mul, crcPolyReflected, Finset.sum_range_succ, Finset.sum_range_zero,
    Nat.reduceSub, BitVec.reduceGetLsb, Bool.false_eq_true, if_true, if_false, pow_zero, pow_one, add_zero, zero_add]
  ring

/-- The start value has every coefficient 1. -/
theorem registerPoly_crcInit : registerPoly crcInit = ∑ k ∈ Finset.range 32, X ^ k := by
  refine Finset.sum_congr rfl fun k hk => ?_
  have hbit : crcInit.getLsbD (31 - k) = true :=
    (BitVec.getLsbD_allOnes (v := 32)).trans (decide_eq_true (by omega))
  rw [hbit, C_bitCoeff_mul, if_pos rfl]

/-- Settles O52: the remainder is the register at the end of the message, and bit i is its coefficient of x^(31-i). -/
theorem checksumIsThePolynomialRemainder : Obligations.ChecksumIsThePolynomialRemainder := by
  intro m i hi g message ones
  have hg : g = generatorPoly := generatorPoly_eq.symm
  have hmessage : message = messagePoly m := Finset.sum_congr rfl fun k _ => (C_bitCoeff_mul _ _).symm
  have hones : ones = registerPoly crcInit := registerPoly_crcInit.symm
  have hraw : crc32 m ^^^ 0xFFFFFFFF#32 = crcRaw crcInit m := by
    rw [crc32, crcXorOut, BitVec.xor_assoc, BitVec.xor_self, BitVec.xor_zero]
  rw [hg, hmessage, hones, message_modByMonic_generatorPoly, coeff_registerPoly, hraw, if_pos (by omega),
    show 31 - (31 - i) = i by omega]
  rfl

end Sys2Proof.Machine
end

section
/-! SUPPORT. The family other, runs: a run of transactions is its observation (R189), what the pseudo-instructions absorb
(R73), and the host's two procedures on a chunk (R144 to R149). -/

namespace Sys2Proof.Machine

/-! ### A run is its observation (R53, R189) -/

/-- R41: a write of an index changes the block, and a read returns the value of its index. -/
def State.after (s : State) (t : Transaction) : State :=
  { s with block := s.block.after t, returned := s.returned ++ (if t.we then [] else [s.block.readIndex t.idx]) }

theorem exec_decodeTransaction (t : Transaction) (s : State) : exec (decodeTransaction t) s = .next (s.after t) := by
  rw [State.after]
  cases h : t.we with
  | true =>
    rw [exec_decodeTransaction_write h, Block.after_write _ h, if_pos rfl, List.append_nil]
    rfl
  | false =>
    rw [exec_decodeTransaction_read h, Block.after_read _ h, if_neg Bool.false_ne_true]
    rfl

/-- R53: the first transaction issued is performed first, and the run goes on from the state it leaves. -/
theorem run_issue_cons {s : State} (hr : s.resetAsserted = false) (t : Transaction) (ts : List Transaction) :
    Sys2Proof.core.run (ts.length + 1) (s.issue (t :: ts)) = Sys2Proof.core.run ts.length ((s.after t).issue ts) := by
  refine run_succ ?_ ts.length
  rw [step_issue hr, exec_decodeTransaction]
  rfl

/-- R189: a run of transactions ends where its observation says, the observed values returned. -/
theorem run_issue (ts : List Transaction) {s : State} (hr : s.resetAsserted = false) :
    Sys2Proof.core.run ts.length (s.issue ts) =
      .next { s with block := (s.block.observe ts).2, returned := s.returned ++ (s.block.observe ts).1 } := by
  induction ts generalizing s with
  | nil =>
    rw [Block.observe_nil, List.append_nil]
    rfl
  | cons t ts ih =>
    refine (run_issue_cons hr t ts).trans ((ih (s := s.after t) hr).trans ?_)
    rw [Block.observe_cons_values, Block.observe_cons_state, ← List.append_assoc]
    rfl

theorem Block.observe_state (b : Block) (ts : List Transaction) : (b.observe ts).2 = ts.foldl Block.after b := by
  induction ts generalizing b with
  | nil => rfl
  | cons t ts ih => exact ih (b.after t)

/-- R189: one value for each read. -/
theorem Block.length_observe_values (b : Block) (ts : List Transaction) :
    (b.observe ts).1.length = (ts.filter (fun u => !u.we)).length := by
  induction ts generalizing b with
  | nil => rfl
  | cons t ts ih =>
    rw [Block.observe_cons_values, List.length_append, ih, List.filter_cons]
    cases t.we
    · exact Nat.add_comm ..
    · exact Nat.zero_add _

/-- R53: the values of later transactions are observed from the block that the earlier ones leave. -/
theorem Block.observe_append_values (b : Block) (l m : List Transaction) :
    (b.observe (l ++ m)).1 = (b.observe l).1 ++ ((b.observe l).2.observe m).1 := by
  induction l generalizing b with
  | nil => rfl
  | cons t l ih =>
    rw [List.cons_append, Block.observe_cons_values, Block.observe_cons_values, ih, List.append_assoc]
    rfl

/-- Settles O21, by induction on the transactions issued. -/
theorem runsOfTransactionsAlwaysEnd : Obligations.RunsOfTransactionsAlwaysEnd :=
  ⟨fun t ts s hr => ⟨_, exec_decodeTransaction t s, hr, rfl, rfl, run_issue_cons hr t ts⟩,
    fun ts s hr => ⟨run_issue ts hr, s.block.observe_state ts, s.block.length_observe_values ts⟩,
    Block.observe_append_values⟩

/-! ### What the pseudo-instructions absorb (R73) -/

theorem Block.after_busWrite (b : Block) (idx : WordIndex) (v : Word) : b.after (busWrite idx v) = b.writeIndex idx v := by
  rw [Block.after_write b (busWrite_we idx v), busWrite_idx, busWrite_wdata]

theorem Block.after_busRead (b : Block) (idx : WordIndex) : b.after (busRead idx) = b := b.after_read (busRead_we idx)

theorem Block.observe_cons_busWrite (b : Block) (idx : WordIndex) (v : Word) (ts : List Transaction) :
    b.observe (busWrite idx v :: ts) = (b.writeIndex idx v).observe ts := by
  rw [Block.observe, b.after_busWrite, busWrite_we, if_pos rfl]

theorem Block.observe_cons_busRead (b : Block) (idx : WordIndex) (ts : List Transaction) :
    b.observe (busRead idx :: ts) = (b.readIndex idx :: (b.observe ts).1, (b.observe ts).2) := by
  rw [Block.observe, b.after_busRead, busRead_we, if_neg Bool.false_ne_true, busRead_idx]

/-- R72: a command mnemonic performs its word's command. -/
theorem Block.after_command (b : Block) (w : Word) : b.after (command w) = b.perform (decodeCommand w) :=
  b.after_busWrite 0#4 w

/-- R49: DATA is staging only: no Absorb of given bytes reads or writes it. -/
theorem Block.setData_absorbAll (b : Block) (v : Word) (m : List Byte) :
    (b.setData v).absorbAll m = (b.absorbAll m).setData v := by
  simp only [Block.absorbAll_eq, Block.setData]

theorem Block.setData_setData (b : Block) (v w : Word) : (b.setData v).setData w = b.setData w := rfl

/-- R85: DATA says nothing of the bytes absorbed. -/
theorem Block.tracks.setData {b : Block} {m : List Byte} (h : b.tracks m) (v : Word) : (b.setData v).tracks m :=
  h.congr (b.setData_S v) (b.setData_COUNT v) (b.setData_WRAP v)

/-- R73: a word and then ABSORBD of n bytes absorb the first n of the word's bytes, and leave the word in DATA. -/
theorem foldl_after_crcTail (b : Block) {n : Nat} (h1 : 1 ≤ n) (h4 : n ≤ 4) (m0 m1 m2 m3 : Byte) :
    (crcTail (wordOfBytes m0 m1 m2 m3) n).foldl Block.after b =
      (b.absorbAll ([m0, m1, m2, m3].take n)).setData (wordOfBytes m0 m1 m2 m3) := by
  have hn : (BitVec.ofNat 2 (n - 1)).toNat + 1 = n := by
    rw [BitVec.toNat_ofNat]
    omega
  rw [crcTail, List.foldl_cons, List.foldl_cons, List.foldl_nil, Block.after_busWrite, Block.after_command, absorbdWord,
    decodeCommand_absorbd_number (by omega), Block.writeIndex_data, Block.perform_absorbd, Block.absorbData,
    Block.setData_DATA, absorbdBytes_wordOfBytes, hn, Block.setData_absorbAll]

theorem foldl_after_crcWord (b : Block) (m0 m1 m2 m3 : Byte) :
    (crcWord (wordOfBytes m0 m1 m2 m3)).foldl Block.after b =
      (b.absorbAll [m0, m1, m2, m3]).setData (wordOfBytes m0 m1 m2 m3) :=
  foldl_after_crcTail b (n := 4) (by decide) (by decide) m0 m1 m2 m3

/-- R73: `crc.bytes` absorbs its bytes; DATA keeps the last word written. -/
theorem foldl_after_crcBytes (m : List Byte) (b : Block) :
    ∃ d, (crcBytes m).foldl Block.after b = (b.absorbAll m).setData d := by
  induction m using crcBytes.induct generalizing b with
  | case1 => exact ⟨b.DATA, rfl⟩
  | case2 m0 => exact ⟨_, foldl_after_crcTail b (n := 1) (by decide) (by decide) m0 0#8 0#8 0#8⟩
  | case3 m0 m1 => exact ⟨_, foldl_after_crcTail b (n := 2) (by decide) (by decide) m0 m1 0#8 0#8⟩
  | case4 m0 m1 m2 => exact ⟨_, foldl_after_crcTail b (n := 3) (by decide) (by decide) m0 m1 m2 0#8⟩
  | case5 m0 m1 m2 m3 rest ih =>
    obtain ⟨d, hd⟩ := ih ((b.absorbAll [m0, m1, m2, m3]).setData (wordOfBytes m0 m1 m2 m3))
    refine ⟨d, ?_⟩
    rw [crcBytes, List.foldl_append, foldl_after_crcWord, hd, Block.setData_absorbAll, Block.setData_setData,
      ← Block.absorbAll_append]
    rfl

/-- R73: `crc.bytes` issues writes only. -/
theorem we_of_mem_crcBytes (m : List Byte) : ∀ t ∈ crcBytes m, t.we = true := by
  induction m using crcBytes.induct with
  | case1 => nofun
  | case2 | case3 | case4 => simp [crcBytes, crcTail, command]
  | case5 m0 m1 m2 m3 rest ih => simpa [crcBytes, crcWord, command, or_imp, forall_and] using ih

/-- R189: a run of writes returns nothing. -/
theorem Block.observe_writes {ts : List Transaction} (h : ∀ t ∈ ts, t.we = true) (b : Block) : (b.observe ts).1 = [] := by
  rw [← List.length_eq_zero_iff, Block.length_observe_values, List.length_eq_zero_iff, List.filter_eq_nil_iff]
  intro t ht
  simp [h t ht]

/-- Settles O55: the block after the run is the Absorbs of the bytes, but for DATA. -/
theorem pseudoBytesAbsorbExactlyTheirBytes : Obligations.PseudoBytesAbsorbExactlyTheirBytes := by
  intro m s hr
  obtain ⟨d, hd⟩ := foldl_after_crcBytes m s.block
  refine ⟨_, run_issue (crcBytes m) hr, ?_⟩
  rw [Block.observe_writes (we_of_mem_crcBytes m), Block.observe_state, hd, Block.absorbAll_eq]
  exact ⟨rfl, rfl, rfl, rfl, rfl, List.append_nil _, rfl, hr⟩

/-! ### The part both procedures share (R144, R146) -/

/-- R144: INIT, the type word and the payload absorb the covered bytes from a new checksum. -/
theorem foldl_after_feedChunk (c : Chunk) (b : Block) :
    ∃ d, (feedChunk c).foldl Block.after b = (b.startChecksum.absorbAll c.covered).setData d := by
  obtain ⟨d, hd⟩ := foldl_after_crcBytes c.payload
    ((b.startChecksum.absorbAll [c.t0, c.t1, c.t2, c.t3]).setData (wordOfBytes c.t0 c.t1 c.t2 c.t3))
  refine ⟨d, ?_⟩
  rw [feedChunk, List.foldl_cons, Block.after_command, decodeCommand_init, Block.perform_init, List.foldl_append,
    foldl_after_crcWord, hd, Block.setData_absorbAll, Block.setData_setData, ← Block.absorbAll_append, Chunk.covered]

/-- The block after the shared part. -/
def Block.fed (b : Block) (c : Chunk) : Block := (feedChunk c).foldl Block.after b

/-- R144, R151: S, COUNT and WRAP are those of the covered bytes, every flag but WRAP is clear, and EXPECT is kept. -/
theorem Block.fed_spec (b : Block) (c : Chunk) : (b.fed c).tracks c.covered ∧ (b.fed c).MATCH = false ∧
    (b.fed c).CHECKED = false ∧ (b.fed c).ILLEGAL = false ∧ (b.fed c).EXPECT = b.EXPECT := by
  obtain ⟨d, hd⟩ := foldl_after_feedChunk c b
  have htracks : (b.fed c).tracks c.covered := by
    rw [Block.fed, hd]
    exact (b.startChecksum_tracks.absorbAll c.covered).setData d
  refine ⟨htracks, ?_⟩
  rw [Block.fed, hd, Block.absorbAll_eq]
  exact ⟨rfl, rfl, rfl, rfl⟩

theorem we_of_mem_feedChunk (c : Chunk) : ∀ t ∈ feedChunk c, t.we = true := by
  simpa [feedChunk, crcWord, command] using we_of_mem_crcBytes c.payload

theorem Chunk.length_covered (c : Chunk) : c.covered.length = 4 + c.payload.length := List.length_append

/-- R189: what follows the shared part is observed from the block it leaves, which it reads nothing of. -/
theorem Block.observe_feedChunk_append (b : Block) (c : Chunk) (ts : List Transaction) :
    b.observe (feedChunk c ++ ts) = ((b.fed c).observe ts) := by
  refine Prod.ext ?_ ?_
  · rw [Block.observe_append_values, Block.observe_writes (we_of_mem_feedChunk c), Block.observe_state, List.nil_append,
      Block.fed]
  · rw [Block.observe_state, Block.observe_state, List.foldl_append, Block.fed]

/-! ### The generator (R144) -/

theorem run_generator (c : Chunk) {s : State} (hr : s.resetAsserted = false) :
    Sys2Proof.core.run (generatorTransactions c).length (s.issue (generatorTransactions c)) =
      .next { s with block := s.block.fed c, returned := s.returned ++ [crc32 c.covered] } := by
  obtain ⟨htracks, -⟩ := s.block.fed_spec c
  rw [run_issue _ hr, generatorTransactions, Block.observe_feedChunk_append, Block.observe_cons_busRead,
    Block.readIndex_result, htracks.result_eq, Block.observe_nil]

/-- Settles O56: RESULT of the block that the shared part leaves. -/
theorem generatorReturnsTheChunkChecksum : Obligations.GeneratorReturnsTheChunkChecksum := by
  refine ⟨fun c h => ⟨generator_of_fits (c.fits_iff.mpr h), ?_⟩, fun c h => generator_refuses (c.not_fits_iff.mpr h),
    fun c s hr => ?_⟩
  · have hlength : ([c.t0, c.t1, c.t2, c.t3] ++ c.payload).length = 4 + c.payload.length := c.length_covered
    omega
  · obtain ⟨⟨-, hcount, hwrap⟩, hmatch, hchecked, hillegal, hexpect⟩ := s.block.fed_spec c
    rw [c.length_covered] at hcount hwrap
    exact ⟨_, run_generator c hr, rfl, hcount, hwrap, hillegal, hmatch, hchecked, hexpect, rfl⟩

/-! ### The checker (R146) -/

/-- The block after the checker procedure. -/
def Block.checkedFor (b : Block) (c : Chunk) : Block := ((b.fed c).setExpect c.checksum).compare

theorem run_checker (c : Chunk) {s : State} (hr : s.resetAsserted = false) :
    Sys2Proof.core.run (checkerTransactions c).length (s.issue (checkerTransactions c)) =
      .next { s with block := s.block.checkedFor c, returned := s.returned ++ [(s.block.checkedFor c).status] } := by
  rw [run_issue _ hr, checkerTransactions, Block.observe_feedChunk_append, crcVerify, command,
    Block.observe_cons_busWrite, Block.observe_cons_busWrite, Block.observe_cons_busRead, Block.writeIndex_expect,
    Block.writeIndex_cmd, decodeCommand_check, Block.perform_check, Block.readIndex_status, Block.observe_nil,
    Block.checkedFor]

/-- R146, R151: the comparison is of the covered bytes' checksum with the stored one. -/
theorem Block.checkedFor_spec (b : Block) (c : Chunk) :
    (b.checkedFor c).MATCH = decide (crc32 c.covered = c.checksum) ∧ (b.checkedFor c).CHECKED = true ∧
      (b.checkedFor c).ILLEGAL = false ∧ (b.checkedFor c).WRAP = decide (2 ^ 32 ≤ 4 + c.payload.length) := by
  obtain ⟨htracks, -, -, hillegal, -⟩ := b.fed_spec c
  have hresult := htracks.result_eq
  obtain ⟨-, -, hwrap⟩ := htracks
  rw [Block.checkedFor, ← hresult, ← c.length_covered, Block.compare_ILLEGAL, Block.compare_WRAP]
  exact ⟨rfl, rfl, hillegal, hwrap⟩

/-- R26, R146: the four values STATUS can have after the checker procedure. -/
theorem Block.status_of_checked {b : Block} {p q : Prop} [Decidable p] [Decidable q] (hmatch : b.MATCH = decide p)
    (hchecked : b.CHECKED = true) (hillegal : b.ILLEGAL = false) (hwrap : b.WRAP = decide q) :
    b.status = (if p then 0x3#32 else 0x2#32) + (if q then 0x8#32 else 0x0#32) := by
  rw [Block.status, hmatch, hchecked, hillegal, hwrap]
  by_cases hp : p <;> by_cases hq : q <;> simp only [hp, hq, decide_true, decide_false, if_true, if_false] <;> rfl

/-- Settles O57: STATUS of the block that the comparison leaves. -/
theorem checkerReportsWhetherTheChecksumMatches : Obligations.CheckerReportsWhetherTheChecksumMatches := by
  refine ⟨fun c h => checker_of_fits (c.fits_iff.mpr h), fun c h => checker_refuses (c.not_fits_iff.mpr h),
    fun c s hr => ⟨_, run_checker c hr, ?_, rfl⟩⟩
  obtain ⟨hmatch, hchecked, hillegal, hwrap⟩ := s.block.checkedFor_spec c
  rw [Block.status_of_checked hmatch hchecked hillegal hwrap]
  rfl

/-- Settles O58: the chunk that is read back is the one that was serialised, with the checksum of the bytes it covers. -/
theorem generatedChunksAlwaysCheck : Obligations.GeneratedChunksAlwaysCheck := by
  refine ⟨fun c rest s u h hs hu => ?_, fun c h => serialise_refuses (c.not_fits_iff.mpr h)⟩
  let c' : Chunk := { c with checksum := crc32 c.covered }
  have hfits : c.fits = true := c.fits_iff.mpr h
  have hread : chunkAt (c'.bytes ++ rest) = c' := chunkAt_bytes (c := c') (Nat.lt_of_le_pred (by decide) h) rest
  obtain ⟨hmatch, hchecked, -, -⟩ := u.block.checkedFor_spec c'
  refine ⟨_, _, crc32 c.covered, c'.bytes, generator_of_fits hfits, run_generator c hs, rfl, serialise_of_fits hfits, hread,
    checkerTransactions c', _, ?_, run_checker c' hu, ?_, hchecked⟩
  · rw [hread]
    exact checker_of_fits hfits
  · rw [hmatch]
    exact decide_eq_true rfl

/-! ### The host's policy (R148) -/

theorem hostAccepts_eq_false_iff (verifyOnParse : Bool) (status : Word) :
    hostAccepts verifyOnParse status = false ↔ verifyOnParse = true ∧ status.getLsbD 0 = false := by
  rw [hostAccepts, Bool.or_eq_false_iff, Bool.not_eq_false', and_comm]

/-- Settles O60: bit 0 of the STATUS returned is MATCH. -/
theorem onlyAVerifyingHostRejectsAMismatch : Obligations.OnlyAVerifyingHostRejectsAMismatch := by
  intro verifyOnParse c s hr
  obtain ⟨hmatch, -⟩ := s.block.checkedFor_spec c
  obtain ⟨hbit, -⟩ := (s.block.checkedFor c).getLsbD_status
  have hreject (verify : Bool) : hostAccepts verify (s.block.checkedFor c).status = false ↔
      verify = true ∧ crc32 c.covered ≠ c.checksum := by
    rw [hostAccepts_eq_false_iff, hbit, hmatch, decide_eq_false_iff_not]
  exact ⟨_, _, run_checker c hr, rfl, hr, hreject verifyOnParse, hreject Config.hostVerifyOnParse⟩

end Sys2Proof.Machine
end
